-- ==== Sys2Proof/Word.lean ====
section
/-! DEFINITION. Sys2Proof/Word.lean: the machine's data widths. Bit 0 is the least significant bit everywhere
(spec/00_scope.md R2); the widths are those of 20_memory.md R35. -/

-- Theorems are elaborated one after another, so that the package as one text does not start more threads than the
-- check's memory limit admits. No definition depends on it.
set_option Elab.async false

namespace Sys2Proof

/-- A byte, 8 bits. -/
abbrev Byte := BitVec 8

/-- A halfword, 16 bits. -/
abbrev Half := BitVec 16

/-- A word, 32 bits: a GPR, an FPR, `pc`, an address, an instruction (00_scope.md R5, `XLEN`). -/
abbrev Word := BitVec 32

/-- A doubleword, 64 bits: what a DP pair holds (10_state.md R16). -/
abbrev DWord := BitVec 64

end Sys2Proof
end

