-- ==== Sys2Proof/Syntax.lean ====
section
/-! DEFINITION. Sys2Proof/Syntax.lean: the 91 instructions of spec/opcode_table.json, one constructor a row, its fields
the operands that 30_encoding.md R54 gives the row. A field of a DP operand holds the number of an FPR; that it is even
is a check of WellFormed.lean (R60). -/

namespace Sys2Proof

/-- The number of a general-purpose register, R0 to R31 (10_state.md R11). -/
abbrev GReg := BitVec 5

/-- The number of a floating-point register, F0 to F31; of a DP pair, its even register (10_state.md R15, R16). -/
abbrev FReg := BitVec 5

/-- The number of a special register, 0 to 31, of which 0 to 3 exist (10_state.md R18). -/
abbrev SReg := BitVec 5

/-- The complete list of instructions (30_encoding.md R58). -/
inductive Instr where
  /-- LB (data transfer, 40_data_transfer.md R71). -/
  | lb (rd rs1 : GReg) (imm : Half)
  /-- LBU (data transfer, 40_data_transfer.md R72). -/
  | lbu (rd rs1 : GReg) (imm : Half)
  /-- SB (data transfer, 40_data_transfer.md R73). -/
  | sb (rd rs1 : GReg) (imm : Half)
  /-- LH (data transfer, 40_data_transfer.md R74). -/
  | lh (rd rs1 : GReg) (imm : Half)
  /-- LHU (data transfer, 40_data_transfer.md R75). -/
  | lhu (rd rs1 : GReg) (imm : Half)
  /-- SH (data transfer, 40_data_transfer.md R76). -/
  | sh (rd rs1 : GReg) (imm : Half)
  /-- LW (data transfer, 40_data_transfer.md R77). -/
  | lw (rd rs1 : GReg) (imm : Half)
  /-- SW (data transfer, 40_data_transfer.md R78). -/
  | sw (rd rs1 : GReg) (imm : Half)
  /-- LF (data transfer, 40_data_transfer.md R79). -/
  | lf (rd : FReg) (rs1 : GReg) (imm : Half)
  /-- LD (data transfer, 40_data_transfer.md R80). -/
  | ld (rd : FReg) (rs1 : GReg) (imm : Half)
  /-- SF (data transfer, 40_data_transfer.md R81). -/
  | sf (rd : FReg) (rs1 : GReg) (imm : Half)
  /-- SD (data transfer, 40_data_transfer.md R82). -/
  | sd (rd : FReg) (rs1 : GReg) (imm : Half)
  /-- MOVI2S (data transfer, 40_data_transfer.md R84). -/
  | movi2s (rd : SReg) (rs1 : GReg)
  /-- MOVS2I (data transfer, 40_data_transfer.md R85). -/
  | movs2i (rd : GReg) (rs1 : SReg)
  /-- MOVF (data transfer, 40_data_transfer.md R86). -/
  | movf (rd rs1 : FReg)
  /-- MOVD (data transfer, 40_data_transfer.md R87). -/
  | movd (rd rs1 : FReg)
  /-- MOVFP2I (data transfer, 40_data_transfer.md R88). -/
  | movfp2i (rd : GReg) (rs1 : FReg)
  /-- MOVI2FP (data transfer, 40_data_transfer.md R89). -/
  | movi2fp (rd : FReg) (rs1 : GReg)
  /-- ADD (arithmetic / logical, 41_arithmetic_logical.md R100). -/
  | add (rd rs1 rs2 : GReg)
  /-- ADDI (arithmetic / logical, 41_arithmetic_logical.md R101). -/
  | addi (rd rs1 : GReg) (imm : Half)
  /-- ADDU (arithmetic / logical, 41_arithmetic_logical.md R102). -/
  | addu (rd rs1 rs2 : GReg)
  /-- ADDUI (arithmetic / logical, 41_arithmetic_logical.md R103). -/
  | addui (rd rs1 : GReg) (imm : Half)
  /-- SUB (arithmetic / logical, 41_arithmetic_logical.md R104). -/
  | sub (rd rs1 rs2 : GReg)
  /-- SUBI (arithmetic / logical, 41_arithmetic_logical.md R105). -/
  | subi (rd rs1 : GReg) (imm : Half)
  /-- SUBU (arithmetic / logical, 41_arithmetic_logical.md R106). -/
  | subu (rd rs1 rs2 : GReg)
  /-- SUBUI (arithmetic / logical, 41_arithmetic_logical.md R107). -/
  | subui (rd rs1 : GReg) (imm : Half)
  /-- MULT (arithmetic / logical, 41_arithmetic_logical.md R108). -/
  | mult (rd rs1 rs2 : FReg)
  /-- MULTU (arithmetic / logical, 41_arithmetic_logical.md R109). -/
  | multu (rd rs1 rs2 : FReg)
  /-- DIV (arithmetic / logical, 41_arithmetic_logical.md R110). -/
  | div (rd rs1 rs2 : FReg)
  /-- DIVU (arithmetic / logical, 41_arithmetic_logical.md R111). -/
  | divu (rd rs1 rs2 : FReg)
  /-- AND (arithmetic / logical, 41_arithmetic_logical.md R112). -/
  | and (rd rs1 rs2 : GReg)
  /-- ANDI (arithmetic / logical, 41_arithmetic_logical.md R113). -/
  | andi (rd rs1 : GReg) (imm : Half)
  /-- OR (arithmetic / logical, 41_arithmetic_logical.md R114). -/
  | or (rd rs1 rs2 : GReg)
  /-- ORI (arithmetic / logical, 41_arithmetic_logical.md R115). -/
  | ori (rd rs1 : GReg) (imm : Half)
  /-- XOR (arithmetic / logical, 41_arithmetic_logical.md R116). -/
  | xor (rd rs1 rs2 : GReg)
  /-- XORI (arithmetic / logical, 41_arithmetic_logical.md R117). -/
  | xori (rd rs1 : GReg) (imm : Half)
  /-- LHI (arithmetic / logical, 41_arithmetic_logical.md R118). -/
  | lhi (rd : GReg) (imm : Half)
  /-- SLL (arithmetic / logical, 41_arithmetic_logical.md R119). -/
  | sll (rd rs1 rs2 : GReg)
  /-- SRL (arithmetic / logical, 41_arithmetic_logical.md R120). -/
  | srl (rd rs1 rs2 : GReg)
  /-- SRA (arithmetic / logical, 41_arithmetic_logical.md R121). -/
  | sra (rd rs1 rs2 : GReg)
  /-- SLLI (arithmetic / logical, 41_arithmetic_logical.md R122). -/
  | slli (rd rs1 : GReg) (imm : Half)
  /-- SRLI (arithmetic / logical, 41_arithmetic_logical.md R123). -/
  | srli (rd rs1 : GReg) (imm : Half)
  /-- SRAI (arithmetic / logical, 41_arithmetic_logical.md R124). -/
  | srai (rd rs1 : GReg) (imm : Half)
  /-- SLT (arithmetic / logical, 41_arithmetic_logical.md R126). -/
  | slt (rd rs1 rs2 : GReg)
  /-- SGT (arithmetic / logical, 41_arithmetic_logical.md R127). -/
  | sgt (rd rs1 rs2 : GReg)
  /-- SLE (arithmetic / logical, 41_arithmetic_logical.md R128). -/
  | sle (rd rs1 rs2 : GReg)
  /-- SGE (arithmetic / logical, 41_arithmetic_logical.md R129). -/
  | sge (rd rs1 rs2 : GReg)
  /-- SEQ (arithmetic / logical, 41_arithmetic_logical.md R130). -/
  | seq (rd rs1 rs2 : GReg)
  /-- SNE (arithmetic / logical, 41_arithmetic_logical.md R131). -/
  | sne (rd rs1 rs2 : GReg)
  /-- SLTI (arithmetic / logical, 41_arithmetic_logical.md R132). -/
  | slti (rd rs1 : GReg) (imm : Half)
  /-- SGTI (arithmetic / logical, 41_arithmetic_logical.md R133). -/
  | sgti (rd rs1 : GReg) (imm : Half)
  /-- SLEI (arithmetic / logical, 41_arithmetic_logical.md R134). -/
  | slei (rd rs1 : GReg) (imm : Half)
  /-- SGEI (arithmetic / logical, 41_arithmetic_logical.md R135). -/
  | sgei (rd rs1 : GReg) (imm : Half)
  /-- SEQI (arithmetic / logical, 41_arithmetic_logical.md R136). -/
  | seqi (rd rs1 : GReg) (imm : Half)
  /-- SNEI (arithmetic / logical, 41_arithmetic_logical.md R137). -/
  | snei (rd rs1 : GReg) (imm : Half)
  /-- BEQZ (control, 42_control.md R151). -/
  | beqz (rs1 : GReg) (imm : Half)
  /-- BNEZ (control, 42_control.md R152). -/
  | bnez (rs1 : GReg) (imm : Half)
  /-- BFPT (control, 42_control.md R153). -/
  | bfpt (imm : Half)
  /-- BFPF (control, 42_control.md R154). -/
  | bfpf (imm : Half)
  /-- J (control, 42_control.md R155). -/
  | j (off : BitVec 26)
  /-- JR (control, 42_control.md R156). -/
  | jr (rs1 : GReg)
  /-- JAL (control, 42_control.md R157). -/
  | jal (off : BitVec 26)
  /-- JALR (control, 42_control.md R158). -/
  | jalr (rs1 : GReg)
  /-- TRAP (control, 42_control.md R159). -/
  | trap (off : BitVec 26)
  /-- RFE (control, 42_control.md R160). -/
  | rfe
  /-- ADDD (floating point, 43_floating_point.md R174). -/
  | addd (rd rs1 rs2 : FReg)
  /-- ADDF (floating point, 43_floating_point.md R175). -/
  | addf (rd rs1 rs2 : FReg)
  /-- SUBD (floating point, 43_floating_point.md R176). -/
  | subd (rd rs1 rs2 : FReg)
  /-- SUBF (floating point, 43_floating_point.md R177). -/
  | subf (rd rs1 rs2 : FReg)
  /-- MULTD (floating point, 43_floating_point.md R178). -/
  | multd (rd rs1 rs2 : FReg)
  /-- MULTF (floating point, 43_floating_point.md R179). -/
  | multf (rd rs1 rs2 : FReg)
  /-- DIVD (floating point, 43_floating_point.md R180). -/
  | divd (rd rs1 rs2 : FReg)
  /-- DIVF (floating point, 43_floating_point.md R181). -/
  | divf (rd rs1 rs2 : FReg)
  /-- CVTF2D (floating point, 43_floating_point.md R182). -/
  | cvtf2d (rd rs1 : FReg)
  /-- CVTF2I (floating point, 43_floating_point.md R183). -/
  | cvtf2i (rd rs1 : FReg)
  /-- CVTD2F (floating point, 43_floating_point.md R184). -/
  | cvtd2f (rd rs1 : FReg)
  /-- CVTD2I (floating point, 43_floating_point.md R185). -/
  | cvtd2i (rd rs1 : FReg)
  /-- CVTI2F (floating point, 43_floating_point.md R186). -/
  | cvti2f (rd rs1 : FReg)
  /-- CVTI2D (floating point, 43_floating_point.md R187). -/
  | cvti2d (rd rs1 : FReg)
  /-- LTD (floating point, 43_floating_point.md R189). -/
  | ltd (rs1 rs2 : FReg)
  /-- GTD (floating point, 43_floating_point.md R190). -/
  | gtd (rs1 rs2 : FReg)
  /-- LED (floating point, 43_floating_point.md R191). -/
  | led (rs1 rs2 : FReg)
  /-- GED (floating point, 43_floating_point.md R192). -/
  | ged (rs1 rs2 : FReg)
  /-- EQD (floating point, 43_floating_point.md R193). -/
  | eqd (rs1 rs2 : FReg)
  /-- NED (floating point, 43_floating_point.md R194). -/
  | ned (rs1 rs2 : FReg)
  /-- LTF (floating point, 43_floating_point.md R195). -/
  | ltf (rs1 rs2 : FReg)
  /-- GTF (floating point, 43_floating_point.md R196). -/
  | gtf (rs1 rs2 : FReg)
  /-- LEF (floating point, 43_floating_point.md R197). -/
  | lef (rs1 rs2 : FReg)
  /-- GEF (floating point, 43_floating_point.md R198). -/
  | gef (rs1 rs2 : FReg)
  /-- EQF (floating point, 43_floating_point.md R199). -/
  | eqf (rs1 rs2 : FReg)
  /-- NEF (floating point, 43_floating_point.md R200). -/
  | nef (rs1 rs2 : FReg)
  deriving DecidableEq, Repr

end Sys2Proof
end

