-- ==== Sys2Proof/WellFormed.lean ====
section
/-! DEFINITION. Sys2Proof/WellFormed.lean: the check an instruction term must pass to have an encoding that is not
reserved: a DP operand names an even register (30_encoding.md R60). Every other operand field admits every value. -/

namespace Sys2Proof

/-- Whether a register number names a DP pair: its low bit is 0 (10_state.md R16). -/
def FReg.isPair (r : FReg) : Bool := !r.getLsbD 0

/-- The check of 30_encoding.md R60 on the operands of an instruction. -/
def Instr.wellFormed : Instr → Bool
  | .lb _ _ _ => true
  | .lbu _ _ _ => true
  | .sb _ _ _ => true
  | .lh _ _ _ => true
  | .lhu _ _ _ => true
  | .sh _ _ _ => true
  | .lw _ _ _ => true
  | .sw _ _ _ => true
  | .lf _ _ _ => true
  | .ld rd _ _ => FReg.isPair rd
  | .sf _ _ _ => true
  | .sd rd _ _ => FReg.isPair rd
  | .movi2s _ _ => true
  | .movs2i _ _ => true
  | .movf _ _ => true
  | .movd rd rs1 => FReg.isPair rd && FReg.isPair rs1
  | .movfp2i _ _ => true
  | .movi2fp _ _ => true
  | .add _ _ _ => true
  | .addi _ _ _ => true
  | .addu _ _ _ => true
  | .addui _ _ _ => true
  | .sub _ _ _ => true
  | .subi _ _ _ => true
  | .subu _ _ _ => true
  | .subui _ _ _ => true
  | .mult _ _ _ => true
  | .multu _ _ _ => true
  | .div _ _ _ => true
  | .divu _ _ _ => true
  | .and _ _ _ => true
  | .andi _ _ _ => true
  | .or _ _ _ => true
  | .ori _ _ _ => true
  | .xor _ _ _ => true
  | .xori _ _ _ => true
  | .lhi _ _ => true
  | .sll _ _ _ => true
  | .srl _ _ _ => true
  | .sra _ _ _ => true
  | .slli _ _ _ => true
  | .srli _ _ _ => true
  | .srai _ _ _ => true
  | .slt _ _ _ => true
  | .sgt _ _ _ => true
  | .sle _ _ _ => true
  | .sge _ _ _ => true
  | .seq _ _ _ => true
  | .sne _ _ _ => true
  | .slti _ _ _ => true
  | .sgti _ _ _ => true
  | .slei _ _ _ => true
  | .sgei _ _ _ => true
  | .seqi _ _ _ => true
  | .snei _ _ _ => true
  | .beqz _ _ => true
  | .bnez _ _ => true
  | .bfpt _ => true
  | .bfpf _ => true
  | .j _ => true
  | .jr _ => true
  | .jal _ => true
  | .jalr _ => true
  | .trap _ => true
  | .rfe => true
  | .addd rd rs1 rs2 => FReg.isPair rd && FReg.isPair rs1 && FReg.isPair rs2
  | .addf _ _ _ => true
  | .subd rd rs1 rs2 => FReg.isPair rd && FReg.isPair rs1 && FReg.isPair rs2
  | .subf _ _ _ => true
  | .multd rd rs1 rs2 => FReg.isPair rd && FReg.isPair rs1 && FReg.isPair rs2
  | .multf _ _ _ => true
  | .divd rd rs1 rs2 => FReg.isPair rd && FReg.isPair rs1 && FReg.isPair rs2
  | .divf _ _ _ => true
  | .cvtf2d rd _ => FReg.isPair rd
  | .cvtf2i _ _ => true
  | .cvtd2f _ rs1 => FReg.isPair rs1
  | .cvtd2i _ rs1 => FReg.isPair rs1
  | .cvti2f _ _ => true
  | .cvti2d rd _ => FReg.isPair rd
  | .ltd rs1 rs2 => FReg.isPair rs1 && FReg.isPair rs2
  | .gtd rs1 rs2 => FReg.isPair rs1 && FReg.isPair rs2
  | .led rs1 rs2 => FReg.isPair rs1 && FReg.isPair rs2
  | .ged rs1 rs2 => FReg.isPair rs1 && FReg.isPair rs2
  | .eqd rs1 rs2 => FReg.isPair rs1 && FReg.isPair rs2
  | .ned rs1 rs2 => FReg.isPair rs1 && FReg.isPair rs2
  | .ltf _ _ => true
  | .gtf _ _ => true
  | .lef _ _ => true
  | .gef _ _ => true
  | .eqf _ _ => true
  | .nef _ _ => true

end Sys2Proof
end

