-- ==== Sys2Proof/Decode.lean ====
section
/-! DEFINITION. Sys2Proof/Decode.lean: from words to instructions and back. `decode` is the opcode table read row by row
(30_encoding.md R57, opcode_table.json); `encode` is written from the formats and opcode maps instead (R51 to R53, R56,
R59, R61), so that the agreement of the two says something. The byte order of a word (20_memory.md R30, R31) is decided
here, once. -/

namespace Sys2Proof

/-! ## Byte order -/

/-- The low `8n` bits of a value as `n` bytes, most significant first: what `MemWrite` stores at `a`, `a+1`, ...
(20_memory.md R37). -/
def splitBytes {w : Nat} (v : BitVec w) : Nat → List Byte
  | 0 => []
  | n + 1 => v.extractLsb' (8 * n) 8 :: splitBytes v n

/-- The value whose bytes, most significant first, are the list: `M[a] ## M[a+1] ## ...` (20_memory.md R30). -/
def joinBytes (w : Nat) (bs : List Byte) : BitVec w :=
  bs.foldl (fun acc b => (acc <<< 8) ||| b.setWidth w) 0

/-! ## Fields of an instruction word (30_encoding.md R51, R52, R53) -/

/-- `rs1`, bits 25:21, of the I and R formats. -/
def Field.rs1 (w : Word) : BitVec 5 := w.extractLsb' 21 5

/-- `rd`, bits 20:16, of the I format. -/
def Field.rdI (w : Word) : BitVec 5 := w.extractLsb' 16 5

/-- `rs2`, bits 20:16, of the R format. -/
def Field.rs2 (w : Word) : BitVec 5 := w.extractLsb' 16 5

/-- `rd`, bits 15:11, of the R format. -/
def Field.rdR (w : Word) : BitVec 5 := w.extractLsb' 11 5

/-- `imm`, bits 15:0, of the I format. -/
def Field.imm (w : Word) : Half := w.extractLsb' 0 16

/-- `off`, bits 25:0, of the J format. -/
def Field.off (w : Word) : BitVec 26 := w.extractLsb' 0 26

/-! ## The opcode table -/

/-- A row of opcode_table.json: a word `w` is this instruction when `w AND mask = pattern` (30_encoding.md R57; the mask
holds the opcode, the function and every must-be-zero bit of R60). -/
structure Row where
  mnemonic : String
  pattern : Word
  mask : Word
  build : Word → Instr

/-- Whether a word is an instance of a row. -/
def Row.matchesWord (r : Row) (w : Word) : Bool := w &&& r.mask == r.pattern

/-- The rows of the class "Data transfers" (40_data_transfer.md). -/
def dataTransferRows : List Row := [
  ⟨"LB", 0x80000000#32, 0xFC000000#32, fun w => .lb (Field.rdI w) (Field.rs1 w) (Field.imm w)⟩,
  ⟨"LBU", 0x90000000#32, 0xFC000000#32, fun w => .lbu (Field.rdI w) (Field.rs1 w) (Field.imm w)⟩,
  ⟨"SB", 0xA0000000#32, 0xFC000000#32, fun w => .sb (Field.rdI w) (Field.rs1 w) (Field.imm w)⟩,
  ⟨"LH", 0x84000000#32, 0xFC000000#32, fun w => .lh (Field.rdI w) (Field.rs1 w) (Field.imm w)⟩,
  ⟨"LHU", 0x94000000#32, 0xFC000000#32, fun w => .lhu (Field.rdI w) (Field.rs1 w) (Field.imm w)⟩,
  ⟨"SH", 0xA4000000#32, 0xFC000000#32, fun w => .sh (Field.rdI w) (Field.rs1 w) (Field.imm w)⟩,
  ⟨"LW", 0x8C000000#32, 0xFC000000#32, fun w => .lw (Field.rdI w) (Field.rs1 w) (Field.imm w)⟩,
  ⟨"SW", 0xAC000000#32, 0xFC000000#32, fun w => .sw (Field.rdI w) (Field.rs1 w) (Field.imm w)⟩,
  ⟨"LF", 0x98000000#32, 0xFC000000#32, fun w => .lf (Field.rdI w) (Field.rs1 w) (Field.imm w)⟩,
  ⟨"LD", 0x9C000000#32, 0xFC010000#32, fun w => .ld (Field.rdI w) (Field.rs1 w) (Field.imm w)⟩,
  ⟨"SF", 0xB8000000#32, 0xFC000000#32, fun w => .sf (Field.rdI w) (Field.rs1 w) (Field.imm w)⟩,
  ⟨"SD", 0xBC000000#32, 0xFC010000#32, fun w => .sd (Field.rdI w) (Field.rs1 w) (Field.imm w)⟩,
  ⟨"MOVI2S", 0x00000030#32, 0xFC1F07FF#32, fun w => .movi2s (Field.rdR w) (Field.rs1 w)⟩,
  ⟨"MOVS2I", 0x00000031#32, 0xFC1F07FF#32, fun w => .movs2i (Field.rdR w) (Field.rs1 w)⟩,
  ⟨"MOVF", 0x00000032#32, 0xFC1F07FF#32, fun w => .movf (Field.rdR w) (Field.rs1 w)⟩,
  ⟨"MOVD", 0x00000033#32, 0xFC3F0FFF#32, fun w => .movd (Field.rdR w) (Field.rs1 w)⟩,
  ⟨"MOVFP2I", 0x00000034#32, 0xFC1F07FF#32, fun w => .movfp2i (Field.rdR w) (Field.rs1 w)⟩,
  ⟨"MOVI2FP", 0x00000035#32, 0xFC1F07FF#32, fun w => .movi2fp (Field.rdR w) (Field.rs1 w)⟩]

/-- The rows of the class "Arithmetic / logical" (41_arithmetic_logical.md). -/
def arithmeticRows : List Row := [
  ⟨"ADD", 0x00000020#32, 0xFC0007FF#32, fun w => .add (Field.rdR w) (Field.rs1 w) (Field.rs2 w)⟩,
  ⟨"ADDI", 0x20000000#32, 0xFC000000#32, fun w => .addi (Field.rdI w) (Field.rs1 w) (Field.imm w)⟩,
  ⟨"ADDU", 0x00000021#32, 0xFC0007FF#32, fun w => .addu (Field.rdR w) (Field.rs1 w) (Field.rs2 w)⟩,
  ⟨"ADDUI", 0x24000000#32, 0xFC000000#32, fun w => .addui (Field.rdI w) (Field.rs1 w) (Field.imm w)⟩,
  ⟨"SUB", 0x00000022#32, 0xFC0007FF#32, fun w => .sub (Field.rdR w) (Field.rs1 w) (Field.rs2 w)⟩,
  ⟨"SUBI", 0x28000000#32, 0xFC000000#32, fun w => .subi (Field.rdI w) (Field.rs1 w) (Field.imm w)⟩,
  ⟨"SUBU", 0x00000023#32, 0xFC0007FF#32, fun w => .subu (Field.rdR w) (Field.rs1 w) (Field.rs2 w)⟩,
  ⟨"SUBUI", 0x2C000000#32, 0xFC000000#32, fun w => .subui (Field.rdI w) (Field.rs1 w) (Field.imm w)⟩,
  ⟨"MULT", 0x0400000E#32, 0xFC0007FF#32, fun w => .mult (Field.rdR w) (Field.rs1 w) (Field.rs2 w)⟩,
  ⟨"MULTU", 0x04000016#32, 0xFC0007FF#32, fun w => .multu (Field.rdR w) (Field.rs1 w) (Field.rs2 w)⟩,
  ⟨"DIV", 0x0400000F#32, 0xFC0007FF#32, fun w => .div (Field.rdR w) (Field.rs1 w) (Field.rs2 w)⟩,
  ⟨"DIVU", 0x04000017#32, 0xFC0007FF#32, fun w => .divu (Field.rdR w) (Field.rs1 w) (Field.rs2 w)⟩,
  ⟨"AND", 0x00000024#32, 0xFC0007FF#32, fun w => .and (Field.rdR w) (Field.rs1 w) (Field.rs2 w)⟩,
  ⟨"ANDI", 0x30000000#32, 0xFC000000#32, fun w => .andi (Field.rdI w) (Field.rs1 w) (Field.imm w)⟩,
  ⟨"OR", 0x00000025#32, 0xFC0007FF#32, fun w => .or (Field.rdR w) (Field.rs1 w) (Field.rs2 w)⟩,
  ⟨"ORI", 0x34000000#32, 0xFC000000#32, fun w => .ori (Field.rdI w) (Field.rs1 w) (Field.imm w)⟩,
  ⟨"XOR", 0x00000026#32, 0xFC0007FF#32, fun w => .xor (Field.rdR w) (Field.rs1 w) (Field.rs2 w)⟩,
  ⟨"XORI", 0x38000000#32, 0xFC000000#32, fun w => .xori (Field.rdI w) (Field.rs1 w) (Field.imm w)⟩,
  ⟨"LHI", 0x3C000000#32, 0xFFE00000#32, fun w => .lhi (Field.rdI w) (Field.imm w)⟩,
  ⟨"SLL", 0x00000004#32, 0xFC0007FF#32, fun w => .sll (Field.rdR w) (Field.rs1 w) (Field.rs2 w)⟩,
  ⟨"SRL", 0x00000006#32, 0xFC0007FF#32, fun w => .srl (Field.rdR w) (Field.rs1 w) (Field.rs2 w)⟩,
  ⟨"SRA", 0x00000007#32, 0xFC0007FF#32, fun w => .sra (Field.rdR w) (Field.rs1 w) (Field.rs2 w)⟩,
  ⟨"SLLI", 0x50000000#32, 0xFC000000#32, fun w => .slli (Field.rdI w) (Field.rs1 w) (Field.imm w)⟩,
  ⟨"SRLI", 0x58000000#32, 0xFC000000#32, fun w => .srli (Field.rdI w) (Field.rs1 w) (Field.imm w)⟩,
  ⟨"SRAI", 0x5C000000#32, 0xFC000000#32, fun w => .srai (Field.rdI w) (Field.rs1 w) (Field.imm w)⟩,
  ⟨"SLT", 0x0000002A#32, 0xFC0007FF#32, fun w => .slt (Field.rdR w) (Field.rs1 w) (Field.rs2 w)⟩,
  ⟨"SGT", 0x0000002B#32, 0xFC0007FF#32, fun w => .sgt (Field.rdR w) (Field.rs1 w) (Field.rs2 w)⟩,
  ⟨"SLE", 0x0000002C#32, 0xFC0007FF#32, fun w => .sle (Field.rdR w) (Field.rs1 w) (Field.rs2 w)⟩,
  ⟨"SGE", 0x0000002D#32, 0xFC0007FF#32, fun w => .sge (Field.rdR w) (Field.rs1 w) (Field.rs2 w)⟩,
  ⟨"SEQ", 0x00000028#32, 0xFC0007FF#32, fun w => .seq (Field.rdR w) (Field.rs1 w) (Field.rs2 w)⟩,
  ⟨"SNE", 0x00000029#32, 0xFC0007FF#32, fun w => .sne (Field.rdR w) (Field.rs1 w) (Field.rs2 w)⟩,
  ⟨"SLTI", 0x68000000#32, 0xFC000000#32, fun w => .slti (Field.rdI w) (Field.rs1 w) (Field.imm w)⟩,
  ⟨"SGTI", 0x6C000000#32, 0xFC000000#32, fun w => .sgti (Field.rdI w) (Field.rs1 w) (Field.imm w)⟩,
  ⟨"SLEI", 0x70000000#32, 0xFC000000#32, fun w => .slei (Field.rdI w) (Field.rs1 w) (Field.imm w)⟩,
  ⟨"SGEI", 0x74000000#32, 0xFC000000#32, fun w => .sgei (Field.rdI w) (Field.rs1 w) (Field.imm w)⟩,
  ⟨"SEQI", 0x60000000#32, 0xFC000000#32, fun w => .seqi (Field.rdI w) (Field.rs1 w) (Field.imm w)⟩,
  ⟨"SNEI", 0x64000000#32, 0xFC000000#32, fun w => .snei (Field.rdI w) (Field.rs1 w) (Field.imm w)⟩]

/-- The rows of the class "Control" (42_control.md). -/
def controlRows : List Row := [
  ⟨"BEQZ", 0x10000000#32, 0xFC1F0000#32, fun w => .beqz (Field.rs1 w) (Field.imm w)⟩,
  ⟨"BNEZ", 0x14000000#32, 0xFC1F0000#32, fun w => .bnez (Field.rs1 w) (Field.imm w)⟩,
  ⟨"BFPT", 0x18000000#32, 0xFFFF0000#32, fun w => .bfpt (Field.imm w)⟩,
  ⟨"BFPF", 0x1C000000#32, 0xFFFF0000#32, fun w => .bfpf (Field.imm w)⟩,
  ⟨"J", 0x08000000#32, 0xFC000000#32, fun w => .j (Field.off w)⟩,
  ⟨"JR", 0x48000000#32, 0xFC1FFFFF#32, fun w => .jr (Field.rs1 w)⟩,
  ⟨"JAL", 0x0C000000#32, 0xFC000000#32, fun w => .jal (Field.off w)⟩,
  ⟨"JALR", 0x4C000000#32, 0xFC1FFFFF#32, fun w => .jalr (Field.rs1 w)⟩,
  ⟨"TRAP", 0x44000000#32, 0xFC000000#32, fun w => .trap (Field.off w)⟩,
  ⟨"RFE", 0x40000000#32, 0xFFFFFFFF#32, fun _ => .rfe⟩]

/-- The rows of the class "Floating point" (43_floating_point.md). -/
def floatingPointRows : List Row := [
  ⟨"ADDD", 0x04000004#32, 0xFC210FFF#32, fun w => .addd (Field.rdR w) (Field.rs1 w) (Field.rs2 w)⟩,
  ⟨"ADDF", 0x04000000#32, 0xFC0007FF#32, fun w => .addf (Field.rdR w) (Field.rs1 w) (Field.rs2 w)⟩,
  ⟨"SUBD", 0x04000005#32, 0xFC210FFF#32, fun w => .subd (Field.rdR w) (Field.rs1 w) (Field.rs2 w)⟩,
  ⟨"SUBF", 0x04000001#32, 0xFC0007FF#32, fun w => .subf (Field.rdR w) (Field.rs1 w) (Field.rs2 w)⟩,
  ⟨"MULTD", 0x04000006#32, 0xFC210FFF#32, fun w => .multd (Field.rdR w) (Field.rs1 w) (Field.rs2 w)⟩,
  ⟨"MULTF", 0x04000002#32, 0xFC0007FF#32, fun w => .multf (Field.rdR w) (Field.rs1 w) (Field.rs2 w)⟩,
  ⟨"DIVD", 0x04000007#32, 0xFC210FFF#32, fun w => .divd (Field.rdR w) (Field.rs1 w) (Field.rs2 w)⟩,
  ⟨"DIVF", 0x04000003#32, 0xFC0007FF#32, fun w => .divf (Field.rdR w) (Field.rs1 w) (Field.rs2 w)⟩,
  ⟨"CVTF2D", 0x04000008#32, 0xFC1F0FFF#32, fun w => .cvtf2d (Field.rdR w) (Field.rs1 w)⟩,
  ⟨"CVTF2I", 0x04000009#32, 0xFC1F07FF#32, fun w => .cvtf2i (Field.rdR w) (Field.rs1 w)⟩,
  ⟨"CVTD2F", 0x0400000A#32, 0xFC3F07FF#32, fun w => .cvtd2f (Field.rdR w) (Field.rs1 w)⟩,
  ⟨"CVTD2I", 0x0400000B#32, 0xFC3F07FF#32, fun w => .cvtd2i (Field.rdR w) (Field.rs1 w)⟩,
  ⟨"CVTI2F", 0x0400000C#32, 0xFC1F07FF#32, fun w => .cvti2f (Field.rdR w) (Field.rs1 w)⟩,
  ⟨"CVTI2D", 0x0400000D#32, 0xFC1F0FFF#32, fun w => .cvti2d (Field.rdR w) (Field.rs1 w)⟩,
  ⟨"LTD", 0x0400001A#32, 0xFC21FFFF#32, fun w => .ltd (Field.rs1 w) (Field.rs2 w)⟩,
  ⟨"GTD", 0x0400001B#32, 0xFC21FFFF#32, fun w => .gtd (Field.rs1 w) (Field.rs2 w)⟩,
  ⟨"LED", 0x0400001C#32, 0xFC21FFFF#32, fun w => .led (Field.rs1 w) (Field.rs2 w)⟩,
  ⟨"GED", 0x0400001D#32, 0xFC21FFFF#32, fun w => .ged (Field.rs1 w) (Field.rs2 w)⟩,
  ⟨"EQD", 0x04000018#32, 0xFC21FFFF#32, fun w => .eqd (Field.rs1 w) (Field.rs2 w)⟩,
  ⟨"NED", 0x04000019#32, 0xFC21FFFF#32, fun w => .ned (Field.rs1 w) (Field.rs2 w)⟩,
  ⟨"LTF", 0x04000012#32, 0xFC00FFFF#32, fun w => .ltf (Field.rs1 w) (Field.rs2 w)⟩,
  ⟨"GTF", 0x04000013#32, 0xFC00FFFF#32, fun w => .gtf (Field.rs1 w) (Field.rs2 w)⟩,
  ⟨"LEF", 0x04000014#32, 0xFC00FFFF#32, fun w => .lef (Field.rs1 w) (Field.rs2 w)⟩,
  ⟨"GEF", 0x04000015#32, 0xFC00FFFF#32, fun w => .gef (Field.rs1 w) (Field.rs2 w)⟩,
  ⟨"EQF", 0x04000010#32, 0xFC00FFFF#32, fun w => .eqf (Field.rs1 w) (Field.rs2 w)⟩,
  ⟨"NEF", 0x04000011#32, 0xFC00FFFF#32, fun w => .nef (Field.rs1 w) (Field.rs2 w)⟩]

/-- opcode_table.json, all 91 rows. -/
def opcodeTable : List Row :=
  dataTransferRows ++ arithmeticRows ++ controlRows ++ floatingPointRows

/-- Why a word is no instruction. -/
inductive DecodeError where
  /-- No row of the table matches the word (30_encoding.md R62). -/
  | reservedEncoding (w : Word)
  /-- Fewer than four bytes were given (R50: every instruction is four bytes long). -/
  | truncated (bytes : Nat)
  deriving DecidableEq, Repr

/-- `Decode(w)` of 30_encoding.md R57: the instruction of the row that matches, or `reserved`. -/
def decode (w : Word) : Except DecodeError Instr :=
  match opcodeTable.find? (fun r => r.matchesWord w) with
  | some r => .ok (r.build w)
  | none => .error (.reservedEncoding w)

/-- Decoding any bytes: the instruction at their start and the bytes after it. -/
def decodeBytes : List Byte → Except DecodeError (Instr × List Byte)
  | b0 :: b1 :: b2 :: b3 :: rest =>
    match decode (joinBytes 32 [b0, b1, b2, b3]) with
    | .ok i => .ok (i, rest)
    | .error e => .error e
  | bs => .error (.truncated bs.length)

/-- What the decoder reads from the instruction word whose bits are `w` (bits `nbits` and above zero), laid out as the
hardware stores it, big-endian. -/
def decodeTableWord (nbits w : Nat) : Option Instr :=
  match decodeBytes (splitBytes (BitVec.ofNat 32 (w % 2 ^ nbits)) 4) with
  | .ok (i, _) => some i
  | .error _ => none

/-! ## The encoder -/

/-- The I format (30_encoding.md R51). -/
def encodeI (opcode : BitVec 6) (rs1 rd : BitVec 5) (imm : Half) : Word :=
  opcode ++ rs1 ++ rd ++ imm

/-- The R format (30_encoding.md R52). -/
def encodeR (opcode : BitVec 6) (rs1 rs2 rd : BitVec 5) (func : BitVec 11) : Word :=
  opcode ++ rs1 ++ rs2 ++ rd ++ func

/-- The J format (30_encoding.md R53). -/
def encodeJ (opcode : BitVec 6) (off : BitVec 26) : Word :=
  opcode ++ off

/-- The word of an instruction, from the opcode maps of 30_encoding.md R56, R59 and R61; an unused field is zero (R60).
Of a term that is not well formed it is the reserved word with the odd register in it. -/
def encode : Instr → Word
  | .lb rd rs1 imm => encodeI 0x20 rs1 rd imm
  | .lbu rd rs1 imm => encodeI 0x24 rs1 rd imm
  | .sb rd rs1 imm => encodeI 0x28 rs1 rd imm
  | .lh rd rs1 imm => encodeI 0x21 rs1 rd imm
  | .lhu rd rs1 imm => encodeI 0x25 rs1 rd imm
  | .sh rd rs1 imm => encodeI 0x29 rs1 rd imm
  | .lw rd rs1 imm => encodeI 0x23 rs1 rd imm
  | .sw rd rs1 imm => encodeI 0x2B rs1 rd imm
  | .lf rd rs1 imm => encodeI 0x26 rs1 rd imm
  | .ld rd rs1 imm => encodeI 0x27 rs1 rd imm
  | .sf rd rs1 imm => encodeI 0x2E rs1 rd imm
  | .sd rd rs1 imm => encodeI 0x2F rs1 rd imm
  | .movi2s rd rs1 => encodeR 0x00 rs1 0 rd 0x30
  | .movs2i rd rs1 => encodeR 0x00 rs1 0 rd 0x31
  | .movf rd rs1 => encodeR 0x00 rs1 0 rd 0x32
  | .movd rd rs1 => encodeR 0x00 rs1 0 rd 0x33
  | .movfp2i rd rs1 => encodeR 0x00 rs1 0 rd 0x34
  | .movi2fp rd rs1 => encodeR 0x00 rs1 0 rd 0x35
  | .add rd rs1 rs2 => encodeR 0x00 rs1 rs2 rd 0x20
  | .addi rd rs1 imm => encodeI 0x08 rs1 rd imm
  | .addu rd rs1 rs2 => encodeR 0x00 rs1 rs2 rd 0x21
  | .addui rd rs1 imm => encodeI 0x09 rs1 rd imm
  | .sub rd rs1 rs2 => encodeR 0x00 rs1 rs2 rd 0x22
  | .subi rd rs1 imm => encodeI 0x0A rs1 rd imm
  | .subu rd rs1 rs2 => encodeR 0x00 rs1 rs2 rd 0x23
  | .subui rd rs1 imm => encodeI 0x0B rs1 rd imm
  | .mult rd rs1 rs2 => encodeR 0x01 rs1 rs2 rd 0x0E
  | .multu rd rs1 rs2 => encodeR 0x01 rs1 rs2 rd 0x16
  | .div rd rs1 rs2 => encodeR 0x01 rs1 rs2 rd 0x0F
  | .divu rd rs1 rs2 => encodeR 0x01 rs1 rs2 rd 0x17
  | .and rd rs1 rs2 => encodeR 0x00 rs1 rs2 rd 0x24
  | .andi rd rs1 imm => encodeI 0x0C rs1 rd imm
  | .or rd rs1 rs2 => encodeR 0x00 rs1 rs2 rd 0x25
  | .ori rd rs1 imm => encodeI 0x0D rs1 rd imm
  | .xor rd rs1 rs2 => encodeR 0x00 rs1 rs2 rd 0x26
  | .xori rd rs1 imm => encodeI 0x0E rs1 rd imm
  | .lhi rd imm => encodeI 0x0F 0 rd imm
  | .sll rd rs1 rs2 => encodeR 0x00 rs1 rs2 rd 0x04
  | .srl rd rs1 rs2 => encodeR 0x00 rs1 rs2 rd 0x06
  | .sra rd rs1 rs2 => encodeR 0x00 rs1 rs2 rd 0x07
  | .slli rd rs1 imm => encodeI 0x14 rs1 rd imm
  | .srli rd rs1 imm => encodeI 0x16 rs1 rd imm
  | .srai rd rs1 imm => encodeI 0x17 rs1 rd imm
  | .slt rd rs1 rs2 => encodeR 0x00 rs1 rs2 rd 0x2A
  | .sgt rd rs1 rs2 => encodeR 0x00 rs1 rs2 rd 0x2B
  | .sle rd rs1 rs2 => encodeR 0x00 rs1 rs2 rd 0x2C
  | .sge rd rs1 rs2 => encodeR 0x00 rs1 rs2 rd 0x2D
  | .seq rd rs1 rs2 => encodeR 0x00 rs1 rs2 rd 0x28
  | .sne rd rs1 rs2 => encodeR 0x00 rs1 rs2 rd 0x29
  | .slti rd rs1 imm => encodeI 0x1A rs1 rd imm
  | .sgti rd rs1 imm => encodeI 0x1B rs1 rd imm
  | .slei rd rs1 imm => encodeI 0x1C rs1 rd imm
  | .sgei rd rs1 imm => encodeI 0x1D rs1 rd imm
  | .seqi rd rs1 imm => encodeI 0x18 rs1 rd imm
  | .snei rd rs1 imm => encodeI 0x19 rs1 rd imm
  | .beqz rs1 imm => encodeI 0x04 rs1 0 imm
  | .bnez rs1 imm => encodeI 0x05 rs1 0 imm
  | .bfpt imm => encodeI 0x06 0 0 imm
  | .bfpf imm => encodeI 0x07 0 0 imm
  | .j off => encodeJ 0x02 off
  | .jr rs1 => encodeI 0x12 rs1 0 0
  | .jal off => encodeJ 0x03 off
  | .jalr rs1 => encodeI 0x13 rs1 0 0
  | .trap off => encodeJ 0x11 off
  | .rfe => encodeJ 0x10 0
  | .addd rd rs1 rs2 => encodeR 0x01 rs1 rs2 rd 0x04
  | .addf rd rs1 rs2 => encodeR 0x01 rs1 rs2 rd 0x00
  | .subd rd rs1 rs2 => encodeR 0x01 rs1 rs2 rd 0x05
  | .subf rd rs1 rs2 => encodeR 0x01 rs1 rs2 rd 0x01
  | .multd rd rs1 rs2 => encodeR 0x01 rs1 rs2 rd 0x06
  | .multf rd rs1 rs2 => encodeR 0x01 rs1 rs2 rd 0x02
  | .divd rd rs1 rs2 => encodeR 0x01 rs1 rs2 rd 0x07
  | .divf rd rs1 rs2 => encodeR 0x01 rs1 rs2 rd 0x03
  | .cvtf2d rd rs1 => encodeR 0x01 rs1 0 rd 0x08
  | .cvtf2i rd rs1 => encodeR 0x01 rs1 0 rd 0x09
  | .cvtd2f rd rs1 => encodeR 0x01 rs1 0 rd 0x0A
  | .cvtd2i rd rs1 => encodeR 0x01 rs1 0 rd 0x0B
  | .cvti2f rd rs1 => encodeR 0x01 rs1 0 rd 0x0C
  | .cvti2d rd rs1 => encodeR 0x01 rs1 0 rd 0x0D
  | .ltd rs1 rs2 => encodeR 0x01 rs1 rs2 0 0x1A
  | .gtd rs1 rs2 => encodeR 0x01 rs1 rs2 0 0x1B
  | .led rs1 rs2 => encodeR 0x01 rs1 rs2 0 0x1C
  | .ged rs1 rs2 => encodeR 0x01 rs1 rs2 0 0x1D
  | .eqd rs1 rs2 => encodeR 0x01 rs1 rs2 0 0x18
  | .ned rs1 rs2 => encodeR 0x01 rs1 rs2 0 0x19
  | .ltf rs1 rs2 => encodeR 0x01 rs1 rs2 0 0x12
  | .gtf rs1 rs2 => encodeR 0x01 rs1 rs2 0 0x13
  | .lef rs1 rs2 => encodeR 0x01 rs1 rs2 0 0x14
  | .gef rs1 rs2 => encodeR 0x01 rs1 rs2 0 0x15
  | .eqf rs1 rs2 => encodeR 0x01 rs1 rs2 0 0x10
  | .nef rs1 rs2 => encodeR 0x01 rs1 rs2 0 0x11

end Sys2Proof
end

