-- ==== Sys2Proof/Machine/Flags.lean ====
section
/-! DEFINITION. Sys2Proof/Machine/Flags.lean: the conditions the machine computes. It has one flag, the comparison bit
(10_state.md section 4): the conditions of the compares that write it, and of the set-conditionals that write the same
six to a GPR, are here, and so are the overflow conditions that raise a trap (41_arithmetic_logical.md R99). -/

namespace Sys2Proof.Machine

/-- The six conditions (41_arithmetic_logical.md R125, 43_floating_point.md R188). -/
inductive Cond where
  | lt
  | gt
  | le
  | ge
  | eq
  | ne
  deriving DecidableEq, Repr

/-- Whether a condition holds of two operands that compare as given; `none` is unordered, of which NE alone holds
(43_floating_point.md R188). -/
def Cond.holds : Cond → Option Ordering → Bool
  | .lt, o => o == some .lt
  | .gt, o => o == some .gt
  | .le, o => o == some .lt || o == some .eq
  | .ge, o => o == some .gt || o == some .eq
  | .eq, o => o == some .eq
  | .ne, o => o != some .eq

/-- Whether a condition holds of two words read as signed integers (41_arithmetic_logical.md R125). -/
def Cond.holdsSigned (c : Cond) (a b : Word) : Bool :=
  c.holds (some (compare a.toInt b.toInt))

/-- Signed overflow of `a + b` (41_arithmetic_logical.md R99, R100): the operands have one sign, the result the other. -/
def addOverflows (a b : Word) : Bool :=
  let r := a + b
  a.msb == b.msb && r.msb != a.msb

/-- Signed overflow of `a - b` (41_arithmetic_logical.md R99, R104). -/
def subOverflows (a b : Word) : Bool :=
  let r := a - b
  a.msb != b.msb && r.msb != a.msb

/-- Whether an integer is outside the range of a signed word, `-2^31 .. 2^31 - 1`. -/
def outsideSigned (x : Int) : Bool := x < -2 ^ 31 || 2 ^ 31 - 1 < x

/-- Signed overflow of `a * b` (41_arithmetic_logical.md R99, R108): the exact product is out of range. -/
def multOverflows (a b : Word) : Bool := outsideSigned (a.toInt * b.toInt)

/-- Signed overflow of `n / d` (41_arithmetic_logical.md R99, R110): `-2^31 / -1`. -/
def divOverflows (n d : Word) : Bool := n.toInt == -2 ^ 31 && d.toInt == -1

end Sys2Proof.Machine
end

