-- ==== Sys2Proof/Machine/Float.lean ====
section
/-! DEFINITION. Sys2Proof/Machine/Float.lean: IEEE 754 binary32 and binary64 arithmetic, round to nearest, ties to even
(43_floating_point.md R170 to R173), computed exactly on rationals and rounded once. -/

namespace Sys2Proof.Machine

/-- What a pattern denotes and what an operation yields before rounding (43_floating_point.md R170): a NaN, an infinity,
or the exact real number `(-1)^neg * num / den` (`den` is positive), the sign of a zero kept. -/
inductive FloatValue where
  | nan
  | infinity (neg : Bool)
  | finite (neg : Bool) (num den : Nat)
  deriving DecidableEq, Repr

/-- A binary format: the number of fraction bits, the largest biased exponent (which means infinity or NaN), and the
`scale` for which the smallest subnormal is `2^-scale`. -/
structure FloatFormat where
  fracBits : Nat
  maxExp : Nat
  scale : Nat
  deriving DecidableEq, Repr

/-- SP is binary32 (43_floating_point.md R170). -/
def FloatFormat.sp : FloatFormat := ⟨23, 255, 149⟩

/-- DP is binary64 (43_floating_point.md R170). -/
def FloatFormat.dp : FloatFormat := ⟨52, 2047, 1074⟩

/-- What sign `s`, biased exponent `e` and fraction `f` denote (the table of 43_floating_point.md R170). A finite number
is a whole number of smallest subnormals, `f` or `(2^fracBits + f) * 2^(e-1)` of them. -/
def FloatFormat.value (fmt : FloatFormat) (s : Bool) (e f : Nat) : FloatValue :=
  if e = fmt.maxExp then
    if f = 0 then .infinity s else .nan
  else if e = 0 then .finite s f (2 ^ fmt.scale)
  else .finite s ((2 ^ fmt.fracBits + f) * 2 ^ (e - 1)) (2 ^ fmt.scale)

/-- `f32(v)` (00_scope.md R3). -/
def f32 (v : Word) : FloatValue :=
  FloatFormat.sp.value v.msb (v.extractLsb' 23 8).toNat (v.extractLsb' 0 23).toNat

/-- `f64(v)` (00_scope.md R3). -/
def f64 (v : DWord) : FloatValue :=
  FloatFormat.dp.value v.msb (v.extractLsb' 52 11).toNat (v.extractLsb' 0 52).toNat

/-! ## Exact operations -/

/-- The number with the opposite sign. -/
def FloatValue.negate : FloatValue → FloatValue
  | .nan => .nan
  | .infinity s => .infinity (!s)
  | .finite s n d => .finite (!s) n d

/-- The exact sum (43_floating_point.md R171, R173): `inf - inf` is invalid, and opposite-signed equal magnitudes give
+0. -/
def FloatValue.add : FloatValue → FloatValue → FloatValue
  | .nan, _ => .nan
  | _, .nan => .nan
  | .infinity s, .infinity t => if s = t then .infinity s else .nan
  | .infinity s, .finite _ _ _ => .infinity s
  | .finite _ _ _, .infinity t => .infinity t
  | .finite s n d, .finite t m e =>
    if s = t then .finite s (n * e + m * d) (d * e)
    else if m * d < n * e then .finite s (n * e - m * d) (d * e)
    else if n * e < m * d then .finite t (m * d - n * e) (d * e)
    else .finite false 0 (d * e)

/-- The exact difference: the sum with the second operand negated. -/
def FloatValue.sub (x y : FloatValue) : FloatValue := x.add y.negate

/-- The exact product (43_floating_point.md R171, R173): `0 * inf` is invalid, the sign is the exclusive-or. -/
def FloatValue.mul : FloatValue → FloatValue → FloatValue
  | .nan, _ => .nan
  | _, .nan => .nan
  | .infinity s, .infinity t => .infinity (s ^^ t)
  | .infinity s, .finite t m _ => if m = 0 then .nan else .infinity (s ^^ t)
  | .finite s n _, .infinity t => if n = 0 then .nan else .infinity (s ^^ t)
  | .finite s n d, .finite t m e => .finite (s ^^ t) (n * m) (d * e)

/-- The exact quotient (43_floating_point.md R171 to R173): `0 / 0` and `inf / inf` are invalid, a non-zero number
divided by zero is an infinity, a finite number divided by an infinity is zero; the sign is the exclusive-or. -/
def FloatValue.div : FloatValue → FloatValue → FloatValue
  | .nan, _ => .nan
  | _, .nan => .nan
  | .infinity _, .infinity _ => .nan
  | .infinity s, .finite t _ _ => .infinity (s ^^ t)
  | .finite s _ _, .infinity t => .finite (s ^^ t) 0 1
  | .finite s n d, .finite t m e =>
    if m = 0 then (if n = 0 then .nan else .infinity (s ^^ t))
    else .finite (s ^^ t) (n * e) (d * m)

/-- The number of an integer (43_floating_point.md R186, R187): zero is +0. -/
def FloatValue.ofInt (x : Int) : FloatValue := .finite (x < 0) x.natAbs 1

/-! ## Rounding -/

/-- The magnitude bits of infinity: exponent all ones, fraction zero. -/
def FloatFormat.infinityBits (fmt : FloatFormat) : Nat := fmt.maxExp * 2 ^ fmt.fracBits

/-- `n / unit` rounded to the nearest integer, ties to even (43_floating_point.md R171). -/
def roundNearestEven (n unit : Nat) : Nat :=
  let q := n / unit
  let r := n % unit
  if 2 * r < unit then q
  else if unit < 2 * r then q + 1
  else q + q % 2

/-- The magnitude bits (exponent and fraction) of `num / den` rounded to a format (43_floating_point.md R171). Counted
in smallest subnormals the number is `num * 2^scale / den`; representable numbers near it lie `2^k` of them apart, and
`k * 2^fracBits + q` is the pattern of `q * 2^k`, also where `q` is below `2^fracBits` (subnormal, `k = 0`) or has been
rounded up to `2^(fracBits+1)`. A pattern past the largest finite one is infinity. -/
def FloatFormat.roundMagnitude (fmt : FloatFormat) (num den : Nat) : Nat :=
  let n := num * 2 ^ fmt.scale
  let k := Nat.log2 (n / den) - fmt.fracBits
  min (k * 2 ^ fmt.fracBits + roundNearestEven n (den * 2 ^ k)) fmt.infinityBits

/-- Sign and magnitude bits of a rounded value; `none` for a NaN, whose bits are a draw (43_floating_point.md R173). -/
def FloatFormat.round (fmt : FloatFormat) : FloatValue → Option (Bool × Nat)
  | .nan => none
  | .infinity s => some (s, fmt.infinityBits)
  | .finite s n d => some (s, fmt.roundMagnitude n d)

/-- `rnd32(x)` (00_scope.md R3); `none` for a NaN. -/
def rnd32 (x : FloatValue) : Option Word :=
  (FloatFormat.sp.round x).map fun (s, m) => BitVec.ofBool s ++ BitVec.ofNat 31 m

/-- `rnd64(x)` (00_scope.md R3); `none` for a NaN. -/
def rnd64 (x : FloatValue) : Option DWord :=
  (FloatFormat.dp.round x).map fun (s, m) => BitVec.ofBool s ++ BitVec.ofNat 63 m

/-- The quiet NaN of single precision with a draw's sign and low 22 fraction bits (43_floating_point.md R170, R173). -/
def quietNaN32 (draw : Word) : Word := draw ||| 0x7FC00000#32

/-- The quiet NaN of double precision with a draw's sign and low 51 fraction bits. -/
def quietNaN64 (draw : DWord) : DWord := draw ||| 0x7FF8000000000000#64

/-! ## Conversion to integer and comparison -/

/-- The integer part, toward zero (43_floating_point.md R183); `none` for a NaN, an infinity, or a number whose integer
part is no signed word. -/
def FloatValue.truncate : FloatValue → Option Int
  | .nan => none
  | .infinity _ => none
  | .finite s n d =>
    let t : Int := if s then -(n / d : Nat) else (n / d : Nat)
    if outsideSigned t then none else some t

/-- The numerator with its sign. -/
def signedNum (s : Bool) (n : Nat) : Int := if s then -(n : Int) else n

/-- How two numbers compare (43_floating_point.md R188): a NaN is unordered, `-0 = +0`, infinities of one sign are
equal. -/
def FloatValue.compare : FloatValue → FloatValue → Option Ordering
  | .nan, _ => none
  | _, .nan => none
  | .infinity s, .infinity t => some (if s = t then .eq else if s then .lt else .gt)
  | .infinity s, .finite _ _ _ => some (if s then .lt else .gt)
  | .finite _ _ _, .infinity t => some (if t then .gt else .lt)
  | .finite s n d, .finite t m e => some (Ord.compare (signedNum s n * e) (signedNum t m * d))

end Sys2Proof.Machine
end

