-- ==== Sys2Proof/Machine/Operands.lean ====
section
/-! DEFINITION. Sys2Proof/Machine/Operands.lean: how an immediate or an offset becomes a 32-bit operand (30_encoding.md
R55), and the addresses and targets computed from one (40_data_transfer.md R70, 42_control.md R150). All arithmetic is
modulo 2^32 (20_memory.md R41, 10_state.md R14). -/

namespace Sys2Proof.Machine

/-- `sext_N` (00_scope.md R3). -/
def sext {n : Nat} (v : BitVec n) : Word := v.signExtend 32

/-- `zext_N` (00_scope.md R3). -/
def zext {n : Nat} (v : BitVec n) : Word := v.zeroExtend 32

/-- The effective address of a load or store: base plus signed displacement (40_data_transfer.md R70). -/
def effectiveAddress (base : Word) (imm : Half) : Word := base + sext imm

/-- The address after the instruction at `pc`: where it falls through to, and what JAL and JALR link (R14). -/
def nextPc (pc : Word) : Word := pc + 4#32

/-- The target of BEQZ, BNEZ, BFPT and BFPF (42_control.md R150). -/
def branchTarget (pc : Word) (imm : Half) : Word := nextPc pc + sext imm

/-- The target of J and JAL (42_control.md R150). -/
def jumpTarget (pc : Word) (off : BitVec 26) : Word := nextPc pc + sext off

/-- The operand of LHI, `imm ## 0^16` (41_arithmetic_logical.md R118). -/
def highImmediate (imm : Half) : Word := imm ++ 0#16

/-- The shift amount of SLL, SRL and SRA: bits 4:0 of the second operand (41_arithmetic_logical.md section 5). -/
def shiftAmount (v : Word) : Nat := (v.extractLsb' 0 5).toNat

/-- The shift amount of SLLI, SRLI and SRAI: `imm[4:0]`, the other bits ignored (30_encoding.md R55). -/
def shiftAmountImm (imm : Half) : Nat := (imm.extractLsb' 0 5).toNat

/-- The integer that a set-conditional writes (41_arithmetic_logical.md R125). -/
def boolWord (b : Bool) : Word := if b then 1#32 else 0#32

end Sys2Proof.Machine
end

