-- ==== Sys2Proof/Config.lean ====
section
/-! DEFINITION. Sys2Proof/Config.lean: what an implementation fixes (the OPEN parameters of 00_scope.md R5), the free
values of the spec (its draws) and the exception causes that one of the parameters is a function of. An `opaque`
constant has no body: nothing can evaluate it and no proof can lean on its value. -/

namespace Sys2Proof

/-- The complete set of exceptions (60_exceptions.md R211). `interrupt` is never raised (R224): the code is only kept
free for a platform that adds one. -/
inductive Cause where
  | illegalInstruction
  | privilegedInstruction
  | fetchMisaligned
  | fetchBusError
  | dataMisaligned
  | dataBusError
  | integerOverflow
  | divideByZero
  | trap
  | interrupt
  deriving DecidableEq, Repr

namespace Config

/-- `VECTOR : Cause x Info -> Addr` (60_exceptions.md R215), where no entry of `Platform.vectors` gives it: any address
(log 4). -/
opaque vector : Cause → Word → Word

/-- The raw bits of the k-th `NAN_DRAW` of single precision (43_floating_point.md R173, 93 U1): any 32 bits; the model
forces the bits that make the pattern a quiet NaN (log 7). -/
opaque nanDrawSp : Nat → Word

/-- The raw bits of the k-th `NAN_DRAW` of double precision: any 64 bits (log 7). -/
opaque nanDrawDp : Nat → DWord

/-- The k-th `CVT_DRAW` (43_floating_point.md R183, 93 U2): any 32-bit value (log 8). -/
opaque cvtDraw : Nat → Word

/-- `RESET_PC` (10_state.md R24), an OPEN multiple of 4. DESIGN CHOICE, unsafe: 0 (log 2). -/
def resetPc : Word := 0#32

end Config

end Sys2Proof
end

