-- ==== Sys2Proof/Machine/State.lean ====
section
/-! DEFINITION. Sys2Proof/Machine/State.lean: the whole state of the machine as plain data (10_state.md R10), the state
after reset (R24, 70_reset_and_hazards.md R240) and the ways a step can stop. -/

namespace Sys2Proof.Machine

/-- The two modes (10_state.md R21). -/
inductive Mode where
  | user
  | system
  deriving DecidableEq, Repr

/-- Memory (10_state.md R22): the bytes that the loader placed or a store wrote, by address, in one canonical form
(`Memory.wf`). A byte that is not listed has no value (R25, log 5). -/
abbrev Memory := List Host.Cell

/-- A run of consecutive byte addresses, `base` to `base + size - 1`. -/
structure Region where
  base : Nat
  size : Nat
  deriving DecidableEq, Repr

/-- One entry of the trap vector: where an exception of this cause, with this info (`none`: with any), transfers
control. -/
structure VectorEntry where
  cause : Cause
  info : Option Word
  target : Word
  deriving DecidableEq, Repr

/-- The OPEN parameters of the platform that the machine is in (00_scope.md R5). They are configuration and no
instruction changes them; they stand in the state because the host's step takes nothing else (logs 3 and 4). -/
structure Platform where
  /-- `MEM_MAP` (20_memory.md R40): a byte is `ram` when some region holds it, else `absent`. -/
  ram : List Region
  /-- `VECTOR` (60_exceptions.md R215): the first entry that fits decides, else `Config.vector`. -/
  vectors : List VectorEntry
  deriving DecidableEq, Repr

/-- The state of the machine, one field per line of 10_state.md R10, and the model's own last three. -/
structure State where
  /-- The program counter (R13). -/
  pc : Word
  /-- R1 to R31 in order; R0 is constant 0 and not stored (R10, R11). -/
  gprs : Vector Word 31
  /-- F0 to F31 (R15); a DP pair is two of them (R16). -/
  fprs : Vector Word 32
  /-- `FPSR.c`, the comparison bit: all that special register 0 stores (R19). -/
  fpsrC : Bool
  /-- Special register 1, the address to resume at (R20). -/
  iar : Word
  /-- Special register 2, the cause code (R20). -/
  ecr : Word
  /-- Special register 3, the cause's datum (R20). -/
  edr : Word
  /-- The mode (R21). -/
  mode : Mode
  /-- Memory (R22). -/
  mem : Memory
  /-- The addresses that a store of this run has written, strictly rising: what `Fetch` tests (20_memory.md R38, R45;
  log 6). -/
  stored : List Nat
  /-- How many draws the run has made: the argument of the next one (logs 7 and 8). The model's own field. -/
  draws : Nat
  /-- The platform's parameters. The model's own field. -/
  platform : Platform
  deriving DecidableEq, Repr

/-- What stops the machine with no meaning for going on. No instruction faults on every path. -/
inductive Fault where
  /-- Raised by `State.memRead` and `State.fetch` for an aligned access to RAM one of whose bytes neither the loader
  nor a store has written: the spec gives the read no value and lets a model fault it (10_state.md R25, 93 U5; log 5).
  Safe. -/
  | unwrittenByte (address : Word)
  deriving DecidableEq, Repr

/-- Why a step has no meaning. -/
inductive Refusal where
  /-- Raised by `exec` for an instruction whose meaning is not written. Safe. None is left. -/
  | notModelled (mnemonic : String)
  /-- Raised by `State.fetch` for an instruction one of whose bytes a store of this run has written: "REFUSED"
  (20_memory.md R38, R45; log 6). Safe. -/
  | storedCode (address : Word)
  deriving DecidableEq, Repr

/-- The outcome of a step or of an instruction. -/
abbrev Result := Host.Outcome State Fault Refusal

/-- The platform after reset: every one of the 2^32 bytes is RAM (DESIGN CHOICE, unsafe: log 3) and no trap address is
given (log 4). -/
def Platform.reset : Platform where
  ram := [⟨0, 2 ^ 32⟩]
  vectors := []

/-- The state after reset (10_state.md R24, 70_reset_and_hazards.md R240): `pc = RESET_PC`, `mode = system`, memory as
the loader leaves it (nothing listed). Every register the spec leaves unspecified is 0 (DESIGN CHOICE, unsafe: log 1). -/
def State.reset : State where
  pc := Config.resetPc
  gprs := Vector.replicate 31 0#32
  fprs := Vector.replicate 32 0#32
  fpsrC := false
  iar := 0#32
  ecr := 0#32
  edr := 0#32
  mode := .system
  mem := []
  stored := []
  draws := 0
  platform := Platform.reset

end Sys2Proof.Machine
end

