-- ==== Sys2Proof/Machine/Ops.lean ====
section
/-! DEFINITION. Sys2Proof/Machine/Ops.lean: the named operations over registers and memory, taking an exception and
returning from one, and fetching a word. Every meaning is written over these. -/

namespace Sys2Proof.Machine

/-! ## Registers -/

/-- `R[i]` (10_state.md R11): R0 reads as 0. -/
def State.readR (s : State) (i : GReg) : Word :=
  if h : i = 0 then 0#32
  else s.gprs[i.toNat - 1]'(by have := i.isLt; omega)

/-- `R[i] <- v` (10_state.md R11): a write to R0 is discarded. -/
def State.writeR (s : State) (i : GReg) (v : Word) : State :=
  if h : i = 0 then s
  else { s with gprs := s.gprs.set (i.toNat - 1) v (by
    have := i.isLt
    have : i.toNat ≠ 0 := fun e => h (BitVec.eq_of_toNat_eq (by simpa using e))
    omega) }

/-- `F[i]` (10_state.md R15). -/
def State.readF (s : State) (i : FReg) : Word := s.fprs[i.toNat]'i.isLt

/-- `F[i] <- v` (10_state.md R15). -/
def State.writeF (s : State) (i : FReg) (v : Word) : State :=
  { s with fprs := s.fprs.set i.toNat v i.isLt }

/-- `D[i] = F[i] ## F[i+1]` (10_state.md R16), for even `i`. -/
def State.readD (s : State) (i : FReg) : DWord := s.readF i ++ s.readF (i + 1)

/-- `D[i] <- v`: `F[i] <- v[63:32]; F[i+1] <- v[31:0]` (10_state.md R16), for even `i`. -/
def State.writeD (s : State) (i : FReg) (v : DWord) : State :=
  (s.writeF i (v.extractLsb' 32 32)).writeF (i + 1) (v.extractLsb' 0 32)

/-- `FPSR.c <- b` (10_state.md R19). -/
def State.writeC (s : State) (b : Bool) : State := { s with fpsrC := b }

/-- The whole of special register 0, `0^31 ## FPSR.c` (10_state.md R19, 40_data_transfer.md R85). -/
def State.fpsr (s : State) : Word := 0#31 ++ BitVec.ofBool s.fpsrC

/-- `IAR <- v` (10_state.md R20). -/
def State.writeIar (s : State) (v : Word) : State := { s with iar := v }

/-- `ECR <- v` (10_state.md R20). -/
def State.writeEcr (s : State) (v : Word) : State := { s with ecr := v }

/-- `EDR <- v` (10_state.md R20). -/
def State.writeEdr (s : State) (v : Word) : State := { s with edr := v }

/-- Counting a draw: the next one is a new one (logs 7 and 8). -/
def State.draw (s : State) : State := { s with draws := s.draws + 1 }

/-- `pc <- t`. -/
def State.jump (s : State) (t : Word) : State := { s with pc := t }

/-- `pc <- pc + 4`: what a rule that does not assign `pc` implies (00_scope.md R3, 10_state.md R14). -/
def State.advance (s : State) : State := s.jump (nextPc s.pc)

/-! ## Exceptions -/

/-- The code that trap entry writes to ECR (60_exceptions.md R211). -/
def causeCode : Cause → Word
  | .illegalInstruction => 1#32
  | .privilegedInstruction => 2#32
  | .fetchMisaligned => 3#32
  | .fetchBusError => 4#32
  | .dataMisaligned => 5#32
  | .dataBusError => 6#32
  | .integerOverflow => 7#32
  | .divideByZero => 8#32
  | .trap => 9#32
  | .interrupt => 10#32

/-- The address to resume at that trap entry writes to IAR (60_exceptions.md R211, R214): `pc + 4` for TRAP, else `pc`. -/
def resumeAddress (c : Cause) (pc : Word) : Word :=
  match c with
  | .trap => nextPc pc
  | .illegalInstruction | .privilegedInstruction | .fetchMisaligned | .fetchBusError | .dataMisaligned | .dataBusError
  | .integerOverflow | .divideByZero | .interrupt => pc

/-- Whether an entry of the trap vector covers an exception. -/
def VectorEntry.covers (e : VectorEntry) (c : Cause) (info : Word) : Bool :=
  e.cause == c && (e.info == none || e.info == some info)

/-- `VECTOR(E, info)` (60_exceptions.md R215): the platform's first entry that covers the exception, else the
uninterpreted `Config.vector` (log 4). -/
def Platform.vector (p : Platform) (c : Cause) (info : Word) : Word :=
  match p.vectors.find? (fun e => e.covers c info) with
  | some e => e.target
  | none => Config.vector c info

/-- Trap entry, `raise E(info)` (60_exceptions.md R214): five writes, as one step, and nothing else changes (R213). -/
def State.takeException (s : State) (c : Cause) (info : Word) : State :=
  { s with
    iar := resumeAddress c s.pc
    ecr := causeCode c
    edr := info
    mode := .system
    pc := s.platform.vector c info }

/-- Return from an exception (42_control.md R160, 60_exceptions.md R216): `pc <- IAR; mode <- user`. -/
def State.returnFromException (s : State) : State := { s with pc := s.iar, mode := .user }

/-- The outcome of an instruction that raises an exception. -/
def State.raise (s : State) (c : Cause) (info : Word) : Result := .next (s.takeException c info)

/-! ## Memory -/

/-- One byte of memory; `none` where nothing has been written (10_state.md R25, log 5). -/
def Memory.read : Memory → Nat → Option Byte
  | [], _ => none
  | (b, v) :: rest, a => if a = b then some v else Memory.read rest a

/-- Writing one byte, keeping the addresses strictly rising. -/
def Memory.write : Memory → Nat → Byte → Memory
  | [], a, v => [(a, v)]
  | (b, u) :: rest, a, v =>
    if a < b then (a, v) :: (b, u) :: rest
    else if a = b then (a, v) :: rest
    else (b, u) :: Memory.write rest a v

/-- The canonical form: addresses strictly rising, each inside the 32-bit address space. -/
abbrev Memory.wf (m : Memory) : Prop :=
  m.Pairwise (fun c d => c.1 < d.1) ∧ ∀ c ∈ m, c.1 < 2 ^ 32

/-- The `n` bytes at `a`, `a+1`, ...; `none` when one has no value. -/
def Memory.readBytes (m : Memory) (a : Nat) : Nat → Option (List Byte)
  | 0 => some []
  | n + 1 =>
    match m.read a, Memory.readBytes m (a + 1) n with
    | some b, some bs => some (b :: bs)
    | _, _ => none

/-- Writing bytes at `a`, `a+1`, ... (20_memory.md R37). -/
def Memory.writeBytes (m : Memory) (a : Nat) : List Byte → Memory
  | [] => m
  | b :: bs => Memory.writeBytes (m.write a b) (a + 1) bs

/-- Adding an address to a strictly rising list. -/
def markStored : List Nat → Nat → List Nat
  | [], a => [a]
  | b :: rest, a =>
    if a < b then a :: b :: rest
    else if a = b then b :: rest
    else b :: markStored rest a

/-- Adding the `n` addresses `a`, `a+1`, ... -/
def markStoredRange (l : List Nat) (a : Nat) : Nat → List Nat
  | 0 => l
  | n + 1 => markStoredRange (markStored l a) (a + 1) n

/-- Whether some byte of `a .. a+n-1` was written by a store of this run (20_memory.md R38). -/
def anyStored (l : List Nat) (a : Nat) : Nat → Bool
  | 0 => false
  | n + 1 => l.contains a || anyStored l (a + 1) n

/-- Whether a region holds a byte. -/
def Region.holds (r : Region) (a : Nat) : Bool := r.base ≤ a && a < r.base + r.size

/-- `MEM_MAP(a) = ram` (20_memory.md R40). -/
def Platform.isRam (p : Platform) (a : Nat) : Bool := p.ram.any (fun r => r.holds a)

/-- Whether every byte of `a .. a+n-1` is `ram`. -/
def Platform.allRam (p : Platform) (a : Nat) : Nat → Bool
  | 0 => true
  | n + 1 => p.isRam a && p.allRam (a + 1) n

/-- One byte of the state's memory. -/
def State.readByte (s : State) (a : Word) : Option Byte := s.mem.read a.toNat

/-- The bytes of a store in memory, and their marks: the low `8n` bits of `v`, big-endian, at `a`, `a+1`, ...
(20_memory.md R37). -/
def State.storeBytes {w : Nat} (s : State) (a n : Nat) (v : BitVec w) : State :=
  { s with mem := s.mem.writeBytes a (splitBytes v n), stored := markStoredRange s.stored a n }

/-- What an access to memory gives: a result, an exception to take, or a stop. -/
inductive Access (α : Type) where
  | done (a : α)
  | raises (c : Cause) (info : Word)
  | faults (f : Fault)
  | refuses (r : Refusal)
  deriving Repr

/-- Going on from an access: with its result, by taking its exception from state `s`, or by its stop. -/
def Access.andThen {α : Type} (x : Access α) (s : State) (k : α → Result) : Result :=
  match x with
  | .done a => k a
  | .raises c info => s.raise c info
  | .faults f => .fault f
  | .refuses r => .refused r

/-- `MemRead(a, n)` as a `w`-bit value, `w = 8n` (20_memory.md R36): misaligned first, then absent; a byte with no value
stops the machine (log 5). -/
def State.memRead (s : State) (w : Nat) (a : Word) (n : Nat) : Access (BitVec w) :=
  if a.toNat % n ≠ 0 then .raises .dataMisaligned a
  else if !s.platform.allRam a.toNat n then .raises .dataBusError a
  else
    match s.mem.readBytes a.toNat n with
    | some bs => .done (joinBytes w bs)
    | none => .faults (.unwrittenByte a)

/-- `MemWrite(a, n, v)` (20_memory.md R37): misaligned first, then absent, then the bytes are stored. -/
def State.memWrite {w : Nat} (s : State) (a : Word) (n : Nat) (v : BitVec w) : Access State :=
  if a.toNat % n ≠ 0 then .raises .dataMisaligned a
  else if !s.platform.allRam a.toNat n then .raises .dataBusError a
  else .done (s.storeBytes a.toNat n v)

/-- `Fetch(a)` (20_memory.md R38): misaligned, absent, stored in this run (REFUSED), then the word. -/
def State.fetch (s : State) (a : Word) : Access Word :=
  if a.extractLsb' 0 2 ≠ 0#2 then .raises .fetchMisaligned a
  else if !s.platform.allRam a.toNat 4 then .raises .fetchBusError a
  else if anyStored s.stored a.toNat 4 then .refuses (.storedCode a)
  else
    match s.mem.readBytes a.toNat 4 with
    | some bs => .done (joinBytes 32 bs)
    | none => .faults (.unwrittenByte a)

/-- The loader placing bytes at `a`, `a+1`, ... (70_reset_and_hazards.md R241; log 9): they are memory content and no
stores of the run, and they are RAM. -/
def State.loadBytes (s : State) (a : Nat) (bs : List Byte) : State :=
  { s with
    mem := s.mem.writeBytes a bs
    stored := s.stored.filter fun b => !(a ≤ b && b < a + bs.length)
    platform :=
      if s.platform.allRam a bs.length then s.platform
      else { s.platform with ram := ⟨a, bs.length⟩ :: s.platform.ram } }

/-- The address that the next step fetches from once `pc` is made a valid one, a multiple of 4 (10_state.md R13): `pc`
itself when it is. -/
def State.fetchAddress (s : State) : Word := s.pc &&& 0xFFFFFFFC#32

/-! ## Shapes that several instructions share -/

/-- Completing with one GPR written and `pc` advanced. -/
def State.setR (s : State) (rd : GReg) (v : Word) : Result := .next (s.writeR rd v).advance

/-- Completing with one FPR written and `pc` advanced. -/
def State.setF (s : State) (rd : FReg) (v : Word) : Result := .next (s.writeF rd v).advance

/-- Completing with a DP pair written and `pc` advanced. -/
def State.setD (s : State) (rd : FReg) (v : DWord) : Result := .next (s.writeD rd v).advance

/-- The rule of an instruction with DP operands: an odd register number in one of them is a reserved encoding, which
raises IllegalInstruction of its word (30_encoding.md R60, R62; log 13). A decoded instruction passes. -/
def State.withPairs (s : State) (i : Instr) (k : Result) : Result :=
  if i.wellFormed then k else s.raise .illegalInstruction (encode i)

/-- The rule of a privileged instruction: in `user` mode it raises PrivilegedInstruction of its word
(60_exceptions.md R211, R221). -/
def State.privileged (s : State) (i : Instr) (k : Result) : Result :=
  match s.mode with
  | .user => s.raise .privilegedInstruction (encode i)
  | .system => k

end Sys2Proof.Machine
end

