-- ==== Sys2Proof/Machine/Arithmetic.lean ====
section
/-! DEFINITION. Sys2Proof/Machine/Arithmetic.lean: the meanings of the arithmetic and logical instructions
(spec/41_arithmetic_logical.md). -/

namespace Sys2Proof.Machine

/-- A signed add or subtract: on overflow IntegerOverflow and nothing written (R99), else the result, also when the
destination is R0 (30_encoding.md R63). -/
def State.setRChecked (s : State) (overflows : Bool) (rd : GReg) (v : Word) : Result :=
  if overflows then s.raise .integerOverflow 0#32 else s.setR rd v

/-- ADD (R100): traps on signed overflow. -/
def execAdd (rd rs1 rs2 : GReg) (s : State) : Result :=
  s.setRChecked (addOverflows (s.readR rs1) (s.readR rs2)) rd (s.readR rs1 + s.readR rs2)

/-- ADDI (R101): sign-extended immediate, traps on signed overflow. -/
def execAddi (rd rs1 : GReg) (imm : Half) (s : State) : Result :=
  s.setRChecked (addOverflows (s.readR rs1) (sext imm)) rd (s.readR rs1 + sext imm)

/-- ADDU (R102): never traps. -/
def execAddu (rd rs1 rs2 : GReg) (s : State) : Result :=
  s.setR rd (s.readR rs1 + s.readR rs2)

/-- ADDUI (R103): zero-extended immediate, never traps. -/
def execAddui (rd rs1 : GReg) (imm : Half) (s : State) : Result :=
  s.setR rd (s.readR rs1 + zext imm)

/-- SUB (R104): traps on signed overflow. -/
def execSub (rd rs1 rs2 : GReg) (s : State) : Result :=
  s.setRChecked (subOverflows (s.readR rs1) (s.readR rs2)) rd (s.readR rs1 - s.readR rs2)

/-- SUBI (R105): sign-extended immediate, traps on signed overflow. -/
def execSubi (rd rs1 : GReg) (imm : Half) (s : State) : Result :=
  s.setRChecked (subOverflows (s.readR rs1) (sext imm)) rd (s.readR rs1 - sext imm)

/-- SUBU (R106): never traps. -/
def execSubu (rd rs1 rs2 : GReg) (s : State) : Result :=
  s.setR rd (s.readR rs1 - s.readR rs2)

/-- SUBUI (R107): zero-extended immediate, never traps. -/
def execSubui (rd rs1 : GReg) (imm : Half) (s : State) : Result :=
  s.setR rd (s.readR rs1 - zext imm)

/-- MULT (R108): the exact signed product of two FPR patterns; traps when it does not fit. -/
def execMult (rd rs1 rs2 : FReg) (s : State) : Result :=
  let a := s.readF rs1
  let b := s.readF rs2
  if multOverflows a b then s.raise .integerOverflow 0#32
  else s.setF rd (BitVec.ofInt 32 (a.toInt * b.toInt))

/-- MULTU (R109): the low 32 bits of the unsigned product. -/
def execMultu (rd rs1 rs2 : FReg) (s : State) : Result :=
  s.setF rd (BitVec.ofNat 32 ((s.readF rs1).toNat * (s.readF rs2).toNat))

/-- DIV (R110): a zero divisor first, then overflow, then the quotient rounded toward zero. -/
def execDiv (rd rs1 rs2 : FReg) (s : State) : Result :=
  let n := s.readF rs1
  let d := s.readF rs2
  if d = 0#32 then s.raise .divideByZero 0#32
  else if divOverflows n d then s.raise .integerOverflow 0#32
  else s.setF rd (BitVec.ofInt 32 (n.toInt.tdiv d.toInt))

/-- DIVU (R111): a zero divisor traps, else the quotient rounded down. -/
def execDivu (rd rs1 rs2 : FReg) (s : State) : Result :=
  let n := s.readF rs1
  let d := s.readF rs2
  if d = 0#32 then s.raise .divideByZero 0#32
  else s.setF rd (BitVec.ofNat 32 (n.toNat / d.toNat))

/-- AND (R112). -/
def execAnd (rd rs1 rs2 : GReg) (s : State) : Result :=
  s.setR rd (s.readR rs1 &&& s.readR rs2)

/-- ANDI (R113): zero-extended immediate. -/
def execAndi (rd rs1 : GReg) (imm : Half) (s : State) : Result :=
  s.setR rd (s.readR rs1 &&& zext imm)

/-- OR (R114). -/
def execOr (rd rs1 rs2 : GReg) (s : State) : Result :=
  s.setR rd (s.readR rs1 ||| s.readR rs2)

/-- ORI (R115): zero-extended immediate. -/
def execOri (rd rs1 : GReg) (imm : Half) (s : State) : Result :=
  s.setR rd (s.readR rs1 ||| zext imm)

/-- XOR (R116). -/
def execXor (rd rs1 rs2 : GReg) (s : State) : Result :=
  s.setR rd (s.readR rs1 ^^^ s.readR rs2)

/-- XORI (R117): zero-extended immediate. -/
def execXori (rd rs1 : GReg) (imm : Half) (s : State) : Result :=
  s.setR rd (s.readR rs1 ^^^ zext imm)

/-- LHI (R118): the upper half is the immediate, the lower half zero. -/
def execLhi (rd : GReg) (imm : Half) (s : State) : Result :=
  s.setR rd (highImmediate imm)

/-- SLL (R119). -/
def execSll (rd rs1 rs2 : GReg) (s : State) : Result :=
  s.setR rd (s.readR rs1 <<< shiftAmount (s.readR rs2))

/-- SRL (R120). -/
def execSrl (rd rs1 rs2 : GReg) (s : State) : Result :=
  s.setR rd (s.readR rs1 >>> shiftAmount (s.readR rs2))

/-- SRA (R121). -/
def execSra (rd rs1 rs2 : GReg) (s : State) : Result :=
  s.setR rd ((s.readR rs1).sshiftRight (shiftAmount (s.readR rs2)))

/-- SLLI (R122). -/
def execSlli (rd rs1 : GReg) (imm : Half) (s : State) : Result :=
  s.setR rd (s.readR rs1 <<< shiftAmountImm imm)

/-- SRLI (R123). -/
def execSrli (rd rs1 : GReg) (imm : Half) (s : State) : Result :=
  s.setR rd (s.readR rs1 >>> shiftAmountImm imm)

/-- SRAI (R124). -/
def execSrai (rd rs1 : GReg) (imm : Half) (s : State) : Result :=
  s.setR rd ((s.readR rs1).sshiftRight (shiftAmountImm imm))

/-- SLT (R126). -/
def execSlt (rd rs1 rs2 : GReg) (s : State) : Result :=
  s.setR rd (boolWord (Cond.lt.holdsSigned (s.readR rs1) (s.readR rs2)))

/-- SGT (R127). -/
def execSgt (rd rs1 rs2 : GReg) (s : State) : Result :=
  s.setR rd (boolWord (Cond.gt.holdsSigned (s.readR rs1) (s.readR rs2)))

/-- SLE (R128). -/
def execSle (rd rs1 rs2 : GReg) (s : State) : Result :=
  s.setR rd (boolWord (Cond.le.holdsSigned (s.readR rs1) (s.readR rs2)))

/-- SGE (R129). -/
def execSge (rd rs1 rs2 : GReg) (s : State) : Result :=
  s.setR rd (boolWord (Cond.ge.holdsSigned (s.readR rs1) (s.readR rs2)))

/-- SEQ (R130). -/
def execSeq (rd rs1 rs2 : GReg) (s : State) : Result :=
  s.setR rd (boolWord (Cond.eq.holdsSigned (s.readR rs1) (s.readR rs2)))

/-- SNE (R131). -/
def execSne (rd rs1 rs2 : GReg) (s : State) : Result :=
  s.setR rd (boolWord (Cond.ne.holdsSigned (s.readR rs1) (s.readR rs2)))

/-- SLTI (R132): sign-extended immediate. -/
def execSlti (rd rs1 : GReg) (imm : Half) (s : State) : Result :=
  s.setR rd (boolWord (Cond.lt.holdsSigned (s.readR rs1) (sext imm)))

/-- SGTI (R133): sign-extended immediate. -/
def execSgti (rd rs1 : GReg) (imm : Half) (s : State) : Result :=
  s.setR rd (boolWord (Cond.gt.holdsSigned (s.readR rs1) (sext imm)))

/-- SLEI (R134): sign-extended immediate. -/
def execSlei (rd rs1 : GReg) (imm : Half) (s : State) : Result :=
  s.setR rd (boolWord (Cond.le.holdsSigned (s.readR rs1) (sext imm)))

/-- SGEI (R135): sign-extended immediate. -/
def execSgei (rd rs1 : GReg) (imm : Half) (s : State) : Result :=
  s.setR rd (boolWord (Cond.ge.holdsSigned (s.readR rs1) (sext imm)))

/-- SEQI (R136): sign-extended immediate. -/
def execSeqi (rd rs1 : GReg) (imm : Half) (s : State) : Result :=
  s.setR rd (boolWord (Cond.eq.holdsSigned (s.readR rs1) (sext imm)))

/-- SNEI (R137): sign-extended immediate. -/
def execSnei (rd rs1 : GReg) (imm : Half) (s : State) : Result :=
  s.setR rd (boolWord (Cond.ne.holdsSigned (s.readR rs1) (sext imm)))

end Sys2Proof.Machine
end

