-- ==== Sys2Proof/Machine/Control.lean ====
section
/-! DEFINITION. Sys2Proof/Machine/Control.lean: the meanings of the control instructions (spec/42_control.md). There is
no delay slot (R150), and a target is written to `pc` unchecked: the next fetch tests it. -/

namespace Sys2Proof.Machine

/-- A conditional branch: to the target when the condition holds, else to `pc + 4` (R150). -/
def State.branchIf (s : State) (taken : Bool) (imm : Half) : Result :=
  .next (if taken then s.jump (branchTarget s.pc imm) else s.advance)

/-- BEQZ (R151). -/
def execBeqz (rs1 : GReg) (imm : Half) (s : State) : Result := s.branchIf (s.readR rs1 == 0#32) imm

/-- BNEZ (R152). -/
def execBnez (rs1 : GReg) (imm : Half) (s : State) : Result := s.branchIf (s.readR rs1 != 0#32) imm

/-- BFPT (R153): branches when the comparison bit is 1. -/
def execBfpt (imm : Half) (s : State) : Result := s.branchIf s.fpsrC imm

/-- BFPF (R154): branches when the comparison bit is 0. -/
def execBfpf (imm : Half) (s : State) : Result := s.branchIf (!s.fpsrC) imm

/-- J (R155). -/
def execJ (off : BitVec 26) (s : State) : Result := .next (s.jump (jumpTarget s.pc off))

/-- JR (R156). -/
def execJr (rs1 : GReg) (s : State) : Result := .next (s.jump (s.readR rs1))

/-- The link write of JAL and JALR: `R[31] <- pc + 4` (R157, R158). -/
def State.link (s : State) : State := s.writeR 31#5 (nextPc s.pc)

/-- JAL (R157). -/
def execJal (off : BitVec 26) (s : State) : Result := .next (s.link.jump (jumpTarget s.pc off))

/-- JALR (R158): the target is read before the link is written. -/
def execJalr (rs1 : GReg) (s : State) : Result := .next (s.link.jump (s.readR rs1))

/-- TRAP (R159): raises Trap(n), its whole effect. -/
def execTrap (off : BitVec 26) (s : State) : Result := s.raise .trap (zext off)

/-- RFE (R160): privileged. -/
def execRfe (s : State) : Result := s.privileged .rfe (.next s.returnFromException)

end Sys2Proof.Machine
end

