-- ==== Sys2Proof/Machine/DataTransfer.lean ====
section
/-! DEFINITION. Sys2Proof/Machine/DataTransfer.lean: the meanings of the data transfer instructions
(spec/40_data_transfer.md). -/

namespace Sys2Proof.Machine

/-- A load: the value at the effective address (40_data_transfer.md R70), then what is done with it. -/
def State.load (s : State) (w n : Nat) (rs1 : GReg) (imm : Half) (k : BitVec w → Result) : Result :=
  (s.memRead w (effectiveAddress (s.readR rs1) imm) n).andThen s k

/-- A store of the low `8n` bits of a value at the effective address, then `pc + 4`. -/
def State.store {w : Nat} (s : State) (n : Nat) (rs1 : GReg) (imm : Half) (v : BitVec w) : Result :=
  (s.memWrite (effectiveAddress (s.readR rs1) imm) n v).andThen s fun t => .next t.advance

/-- LB (R71): a byte, sign-extended. -/
def execLb (rd rs1 : GReg) (imm : Half) (s : State) : Result :=
  s.load 8 1 rs1 imm fun v => s.setR rd (sext v)

/-- LBU (R72): a byte, zero-extended. -/
def execLbu (rd rs1 : GReg) (imm : Half) (s : State) : Result :=
  s.load 8 1 rs1 imm fun v => s.setR rd (zext v)

/-- SB (R73): the low byte of the GPR. -/
def execSb (rd rs1 : GReg) (imm : Half) (s : State) : Result := s.store 1 rs1 imm (s.readR rd)

/-- LH (R74): a halfword, sign-extended. -/
def execLh (rd rs1 : GReg) (imm : Half) (s : State) : Result :=
  s.load 16 2 rs1 imm fun v => s.setR rd (sext v)

/-- LHU (R75): a halfword, zero-extended. -/
def execLhu (rd rs1 : GReg) (imm : Half) (s : State) : Result :=
  s.load 16 2 rs1 imm fun v => s.setR rd (zext v)

/-- SH (R76): the low halfword of the GPR. -/
def execSh (rd rs1 : GReg) (imm : Half) (s : State) : Result := s.store 2 rs1 imm (s.readR rd)

/-- LW (R77). -/
def execLw (rd rs1 : GReg) (imm : Half) (s : State) : Result :=
  s.load 32 4 rs1 imm fun v => s.setR rd v

/-- SW (R78). -/
def execSw (rd rs1 : GReg) (imm : Half) (s : State) : Result := s.store 4 rs1 imm (s.readR rd)

/-- LF (R79): 32 bits to an FPR, unchanged. -/
def execLf (rd : FReg) (rs1 : GReg) (imm : Half) (s : State) : Result :=
  s.load 32 4 rs1 imm fun v => s.setF rd v

/-- LD (R80): one 8-byte access to a DP pair. -/
def execLd (rd : FReg) (rs1 : GReg) (imm : Half) (s : State) : Result :=
  s.withPairs (.ld rd rs1 imm) (s.load 64 8 rs1 imm fun v => s.setD rd v)

/-- SF (R81): the 32 bits of an FPR. -/
def execSf (rd : FReg) (rs1 : GReg) (imm : Half) (s : State) : Result := s.store 4 rs1 imm (s.readF rd)

/-- SD (R82): one 8-byte access from a DP pair. -/
def execSd (rd : FReg) (rs1 : GReg) (imm : Half) (s : State) : Result :=
  s.withPairs (.sd rd rs1 imm) (s.store 8 rs1 imm (s.readD rd))

/-- MOVI2S (R84): a reserved number first, then privilege, then the write. -/
def execMovi2s (rd : SReg) (rs1 : GReg) (s : State) : Result :=
  let v := s.readR rs1
  match rd.toNat with
  | 0 => .next (s.writeC (v.getLsbD 0)).advance
  | 1 => s.privileged (.movi2s rd rs1) (.next (s.writeIar v).advance)
  | 2 => s.privileged (.movi2s rd rs1) (.next (s.writeEcr v).advance)
  | 3 => s.privileged (.movi2s rd rs1) (.next (s.writeEdr v).advance)
  | _ + 4 => s.raise .illegalInstruction (encode (.movi2s rd rs1))

/-- MOVS2I (R85): a reserved number first, then privilege, then the read. -/
def execMovs2i (rd : GReg) (rs1 : SReg) (s : State) : Result :=
  match rs1.toNat with
  | 0 => s.setR rd s.fpsr
  | 1 => s.privileged (.movs2i rd rs1) (s.setR rd s.iar)
  | 2 => s.privileged (.movs2i rd rs1) (s.setR rd s.ecr)
  | 3 => s.privileged (.movs2i rd rs1) (s.setR rd s.edr)
  | _ + 4 => s.raise .illegalInstruction (encode (.movs2i rd rs1))

/-- MOVF (R86): a bit copy. -/
def execMovf (rd rs1 : FReg) (s : State) : Result := s.setF rd (s.readF rs1)

/-- MOVD (R87): a bit copy of a pair, both halves read first. -/
def execMovd (rd rs1 : FReg) (s : State) : Result :=
  s.withPairs (.movd rd rs1) (s.setD rd (s.readD rs1))

/-- MOVFP2I (R88): a bit copy to a GPR. -/
def execMovfp2i (rd : GReg) (rs1 : FReg) (s : State) : Result := s.setR rd (s.readF rs1)

/-- MOVI2FP (R89): a bit copy to an FPR. -/
def execMovi2fp (rd : FReg) (rs1 : GReg) (s : State) : Result := s.setF rd (s.readR rs1)

end Sys2Proof.Machine
end

