-- ==== Sys2Proof/Machine/FloatingPoint.lean ====
section
/-! DEFINITION. Sys2Proof/Machine/FloatingPoint.lean: the meanings of the floating-point instructions
(spec/43_floating_point.md). None raises an exception on any operand value (R172). -/

namespace Sys2Proof.Machine

/-- Writing a rounded SP result, a NaN as the next `NAN_DRAW` made quiet (R173; log 7). -/
def State.setSp (s : State) (rd : FReg) (x : FloatValue) : Result :=
  match rnd32 x with
  | some v => s.setF rd v
  | none => s.draw.setF rd (quietNaN32 (Config.nanDrawSp s.draws))

/-- Writing a rounded DP result, a NaN as the next `NAN_DRAW` made quiet (R173; log 7). -/
def State.setDp (s : State) (rd : FReg) (x : FloatValue) : Result :=
  match rnd64 x with
  | some v => s.setD rd v
  | none => s.draw.setD rd (quietNaN64 (Config.nanDrawDp s.draws))

/-- Writing a number truncated to a signed integer, the next `CVT_DRAW` where it is none (R183; log 8). -/
def State.setTruncated (s : State) (rd : FReg) (x : FloatValue) : Result :=
  match x.truncate with
  | some i => s.setF rd (BitVec.ofInt 32 i)
  | none => s.draw.setF rd (Config.cvtDraw s.draws)

/-- Writing the comparison bit (R188). -/
def State.setCompare (s : State) (c : Cond) (x y : FloatValue) : Result :=
  .next (s.writeC (c.holds (x.compare y))).advance

/-- ADDD (R174). -/
def execAddd (rd rs1 rs2 : FReg) (s : State) : Result :=
  s.withPairs (.addd rd rs1 rs2) (s.setDp rd ((f64 (s.readD rs1)).add (f64 (s.readD rs2))))

/-- ADDF (R175). -/
def execAddf (rd rs1 rs2 : FReg) (s : State) : Result :=
  s.setSp rd ((f32 (s.readF rs1)).add (f32 (s.readF rs2)))

/-- SUBD (R176). -/
def execSubd (rd rs1 rs2 : FReg) (s : State) : Result :=
  s.withPairs (.subd rd rs1 rs2) (s.setDp rd ((f64 (s.readD rs1)).sub (f64 (s.readD rs2))))

/-- SUBF (R177). -/
def execSubf (rd rs1 rs2 : FReg) (s : State) : Result :=
  s.setSp rd ((f32 (s.readF rs1)).sub (f32 (s.readF rs2)))

/-- MULTD (R178). -/
def execMultd (rd rs1 rs2 : FReg) (s : State) : Result :=
  s.withPairs (.multd rd rs1 rs2) (s.setDp rd ((f64 (s.readD rs1)).mul (f64 (s.readD rs2))))

/-- MULTF (R179). -/
def execMultf (rd rs1 rs2 : FReg) (s : State) : Result :=
  s.setSp rd ((f32 (s.readF rs1)).mul (f32 (s.readF rs2)))

/-- DIVD (R180). -/
def execDivd (rd rs1 rs2 : FReg) (s : State) : Result :=
  s.withPairs (.divd rd rs1 rs2) (s.setDp rd ((f64 (s.readD rs1)).div (f64 (s.readD rs2))))

/-- DIVF (R181). -/
def execDivf (rd rs1 rs2 : FReg) (s : State) : Result :=
  s.setSp rd ((f32 (s.readF rs1)).div (f32 (s.readF rs2)))

/-- CVTF2D (R182): exact; a NaN gives a quiet NaN. -/
def execCvtf2d (rd rs1 : FReg) (s : State) : Result :=
  s.withPairs (.cvtf2d rd rs1) (s.setDp rd (f32 (s.readF rs1)))

/-- CVTF2I (R183): toward zero. -/
def execCvtf2i (rd rs1 : FReg) (s : State) : Result :=
  s.setTruncated rd (f32 (s.readF rs1))

/-- CVTD2F (R184): rounds. -/
def execCvtd2f (rd rs1 : FReg) (s : State) : Result :=
  s.withPairs (.cvtd2f rd rs1) (s.setSp rd (f64 (s.readD rs1)))

/-- CVTD2I (R185): toward zero. -/
def execCvtd2i (rd rs1 : FReg) (s : State) : Result :=
  s.withPairs (.cvtd2i rd rs1) (s.setTruncated rd (f64 (s.readD rs1)))

/-- CVTI2F (R186): rounds. -/
def execCvti2f (rd rs1 : FReg) (s : State) : Result :=
  s.setSp rd (.ofInt (s.readF rs1).toInt)

/-- CVTI2D (R187): exact. -/
def execCvti2d (rd rs1 : FReg) (s : State) : Result :=
  s.withPairs (.cvti2d rd rs1) (s.setDp rd (.ofInt (s.readF rs1).toInt))

/-- LTD (R189). -/
def execLtd (rs1 rs2 : FReg) (s : State) : Result :=
  s.withPairs (.ltd rs1 rs2) (s.setCompare .lt (f64 (s.readD rs1)) (f64 (s.readD rs2)))

/-- GTD (R190). -/
def execGtd (rs1 rs2 : FReg) (s : State) : Result :=
  s.withPairs (.gtd rs1 rs2) (s.setCompare .gt (f64 (s.readD rs1)) (f64 (s.readD rs2)))

/-- LED (R191). -/
def execLed (rs1 rs2 : FReg) (s : State) : Result :=
  s.withPairs (.led rs1 rs2) (s.setCompare .le (f64 (s.readD rs1)) (f64 (s.readD rs2)))

/-- GED (R192). -/
def execGed (rs1 rs2 : FReg) (s : State) : Result :=
  s.withPairs (.ged rs1 rs2) (s.setCompare .ge (f64 (s.readD rs1)) (f64 (s.readD rs2)))

/-- EQD (R193). -/
def execEqd (rs1 rs2 : FReg) (s : State) : Result :=
  s.withPairs (.eqd rs1 rs2) (s.setCompare .eq (f64 (s.readD rs1)) (f64 (s.readD rs2)))

/-- NED (R194). -/
def execNed (rs1 rs2 : FReg) (s : State) : Result :=
  s.withPairs (.ned rs1 rs2) (s.setCompare .ne (f64 (s.readD rs1)) (f64 (s.readD rs2)))

/-- LTF (R195). -/
def execLtf (rs1 rs2 : FReg) (s : State) : Result :=
  s.setCompare .lt (f32 (s.readF rs1)) (f32 (s.readF rs2))

/-- GTF (R196). -/
def execGtf (rs1 rs2 : FReg) (s : State) : Result :=
  s.setCompare .gt (f32 (s.readF rs1)) (f32 (s.readF rs2))

/-- LEF (R197). -/
def execLef (rs1 rs2 : FReg) (s : State) : Result :=
  s.setCompare .le (f32 (s.readF rs1)) (f32 (s.readF rs2))

/-- GEF (R198). -/
def execGef (rs1 rs2 : FReg) (s : State) : Result :=
  s.setCompare .ge (f32 (s.readF rs1)) (f32 (s.readF rs2))

/-- EQF (R199). -/
def execEqf (rs1 rs2 : FReg) (s : State) : Result :=
  s.setCompare .eq (f32 (s.readF rs1)) (f32 (s.readF rs2))

/-- NEF (R200). -/
def execNef (rs1 rs2 : FReg) (s : State) : Result :=
  s.setCompare .ne (f32 (s.readF rs1)) (f32 (s.readF rs2))

end Sys2Proof.Machine
end

