-- ==== Sys2Proof/Machine/Step.lean ====
section
/-! DEFINITION. Sys2Proof/Machine/Step.lean: one step of the machine, and placing an instruction where it fetches. -/

namespace Sys2Proof.Machine

/-- `Step` (00_scope.md R4): fetch, decode, execute; a reserved word raises IllegalInstruction of itself (30_encoding.md
R62). -/
def step (s : State) : Host.Outcome State Fault Refusal :=
  (s.fetch s.pc).andThen s fun w =>
    match decode w with
    | .ok i => exec i s
    | .error _ => s.raise .illegalInstruction w

/-- The state with the instruction word whose bits are `w` (bits `nbits` and above zero) loaded where the next step
fetches (log 9). In a state whose `pc` is a multiple of 4, whose four bytes at `pc` are RAM and not stored in this run,
only those four bytes change. -/
def State.withFetchWord (s : State) (nbits w : Nat) : State :=
  (s.jump s.fetchAddress).loadBytes s.fetchAddress.toNat (splitBytes (BitVec.ofNat 32 (w % 2 ^ nbits)) 4)

end Sys2Proof.Machine
end

