-- ==== Sys2Proof/Laws/Encoding.lean ====
section
/-! SUPPORT. Sys2Proof/Laws/Encoding.lean: the fields and the masked bits of an encoded word. -/

namespace Sys2Proof

/-! ## Reading a field back -/

section
variable (op : BitVec 6) (rs1 rs2 rd : BitVec 5) (imm : Half) (func : BitVec 11) (off : BitVec 26)

@[simp] theorem Field.rs1_encodeI : Field.rs1 (encodeI op rs1 rd imm) = rs1 := by
  unfold Field.rs1 encodeI
  rw [BitVec.extractLsb'_append_eq_of_le (by decide), BitVec.extractLsb'_append_eq_of_le (by decide),
    BitVec.extractLsb'_append_eq_of_add_le (by decide), BitVec.extractLsb'_eq_self]

@[simp] theorem Field.rdI_encodeI : Field.rdI (encodeI op rs1 rd imm) = rd := by
  unfold Field.rdI encodeI
  rw [BitVec.extractLsb'_append_eq_of_le (by decide), BitVec.extractLsb'_append_eq_of_add_le (by decide),
    BitVec.extractLsb'_eq_self]

@[simp] theorem Field.imm_encodeI : Field.imm (encodeI op rs1 rd imm) = imm := by
  unfold Field.imm encodeI
  rw [BitVec.extractLsb'_append_eq_of_add_le (by decide), BitVec.extractLsb'_eq_self]

@[simp] theorem Field.rs1_encodeR : Field.rs1 (encodeR op rs1 rs2 rd func) = rs1 := by
  unfold Field.rs1 encodeR
  rw [BitVec.extractLsb'_append_eq_of_le (by decide), BitVec.extractLsb'_append_eq_of_le (by decide),
    BitVec.extractLsb'_append_eq_of_le (by decide), BitVec.extractLsb'_append_eq_of_add_le (by decide),
    BitVec.extractLsb'_eq_self]

@[simp] theorem Field.rs2_encodeR : Field.rs2 (encodeR op rs1 rs2 rd func) = rs2 := by
  unfold Field.rs2 encodeR
  rw [BitVec.extractLsb'_append_eq_of_le (by decide), BitVec.extractLsb'_append_eq_of_le (by decide),
    BitVec.extractLsb'_append_eq_of_add_le (by decide), BitVec.extractLsb'_eq_self]

@[simp] theorem Field.rdR_encodeR : Field.rdR (encodeR op rs1 rs2 rd func) = rd := by
  unfold Field.rdR encodeR
  rw [BitVec.extractLsb'_append_eq_of_le (by decide), BitVec.extractLsb'_append_eq_of_add_le (by decide),
    BitVec.extractLsb'_eq_self]

@[simp] theorem Field.off_encodeJ : Field.off (encodeJ op off) = off := by
  unfold Field.off encodeJ
  rw [BitVec.extractLsb'_append_eq_of_add_le (by decide), BitVec.extractLsb'_eq_self]

end

/-! ## Masking an encoded word -/

/-- Masking works field by field in the I format. -/
theorem encodeI_and (a a' : BitVec 6) (b b' c c' : BitVec 5) (d d' : Half) :
    encodeI a b c d &&& encodeI a' b' c' d' = encodeI (a &&& a') (b &&& b') (c &&& c') (d &&& d') := by
  unfold encodeI
  rw [BitVec.and_append, BitVec.and_append, BitVec.and_append]

/-- Masking works field by field in the R format. -/
theorem encodeR_and (a a' : BitVec 6) (b b' c c' d d' : BitVec 5) (e e' : BitVec 11) :
    encodeR a b c d e &&& encodeR a' b' c' d' e' =
      encodeR (a &&& a') (b &&& b') (c &&& c') (d &&& d') (e &&& e') := by
  unfold encodeR
  rw [BitVec.and_append, BitVec.and_append, BitVec.and_append, BitVec.and_append]

/-- Masking works field by field in the J format. -/
theorem encodeJ_and (a a' : BitVec 6) (b b' : BitVec 26) :
    encodeJ a b &&& encodeJ a' b' = encodeJ (a &&& a') (b &&& b') := by
  unfold encodeJ
  rw [BitVec.and_append]

/-- The low bit of the number of a DP pair is 0. -/
theorem FReg.and_one_of_isPair {r : FReg} (h : r.isPair = true) : r &&& 1#5 = 0#5 := by
  revert r
  decide

/-- A word in the I format matches a row whose mask and pattern are given field by field. -/
theorem Row.matches_encodeI {r : Row} {a : BitVec 6} {b c : BitVec 5} {d : Half}
    (a' : BitVec 6) (b' c' : BitVec 5) (d' : Half) (hm : r.mask = encodeI a' b' c' d')
    (hp : encodeI (a &&& a') (b &&& b') (c &&& c') (d &&& d') = r.pattern) : r.matchesWord (encodeI a b c d) = true := by
  simp [Row.matchesWord, hm, encodeI_and, hp]

/-- A word in the R format matches a row whose mask and pattern are given field by field. -/
theorem Row.matches_encodeR {r : Row} {a : BitVec 6} {b c d : BitVec 5} {e : BitVec 11}
    (a' : BitVec 6) (b' c' d' : BitVec 5) (e' : BitVec 11) (hm : r.mask = encodeR a' b' c' d' e')
    (hp : encodeR (a &&& a') (b &&& b') (c &&& c') (d &&& d') (e &&& e') = r.pattern) :
    r.matchesWord (encodeR a b c d e) = true := by
  simp [Row.matchesWord, hm, encodeR_and, hp]

/-- A word in the J format matches a row whose mask and pattern are given field by field. -/
theorem Row.matches_encodeJ {r : Row} {a : BitVec 6} {b : BitVec 26} (a' : BitVec 6) (b' : BitVec 26)
    (hm : r.mask = encodeJ a' b') (hp : encodeJ (a &&& a') (b &&& b') = r.pattern) :
    r.matchesWord (encodeJ a b) = true := by
  simp [Row.matchesWord, hm, encodeJ_and, hp]

end Sys2Proof
end

