-- ==== Sys2Proof/Laws/PerInstr.lean ====
section
/-! SUPPORT. Sys2Proof/Laws/PerInstr.lean: statements made for each instruction, one lemma per constructor. -/

namespace Sys2Proof.Laws

/-- The word of a well-formed instruction is an instance of row number `k` of the opcode table, every fixed bit of it
included, and that row builds the instruction back from it. That no other row matches is not said here. -/
def FixedBits.rowBuilds (i : Instr) (k : Nat) : Prop :=
  ∃ r, opcodeTable[k]? = some r ∧ r.matchesWord (encode i) = true ∧ r.build (encode i) = i

/-- A well-formed instruction's word is an instance of a row that builds it back. -/
def FixedBits.Statement (i : Instr) : Prop := i.wellFormed = true → ∃ k, FixedBits.rowBuilds i k

theorem FixedBits.lb (rd : GReg) (rs1 : GReg) (imm : Half) : FixedBits.Statement (.lb rd rs1 imm) := by
  refine fun _ => ⟨0, _, rfl, Row.matches_encodeI 0x3F 0x0 0x0 0x0 rfl ?_, by simp [encode]⟩
  simp [encodeI]

theorem FixedBits.lbu (rd : GReg) (rs1 : GReg) (imm : Half) : FixedBits.Statement (.lbu rd rs1 imm) := by
  refine fun _ => ⟨1, _, rfl, Row.matches_encodeI 0x3F 0x0 0x0 0x0 rfl ?_, by simp [encode]⟩
  simp [encodeI]

theorem FixedBits.sb (rd : GReg) (rs1 : GReg) (imm : Half) : FixedBits.Statement (.sb rd rs1 imm) := by
  refine fun _ => ⟨2, _, rfl, Row.matches_encodeI 0x3F 0x0 0x0 0x0 rfl ?_, by simp [encode]⟩
  simp [encodeI]

theorem FixedBits.lh (rd : GReg) (rs1 : GReg) (imm : Half) : FixedBits.Statement (.lh rd rs1 imm) := by
  refine fun _ => ⟨3, _, rfl, Row.matches_encodeI 0x3F 0x0 0x0 0x0 rfl ?_, by simp [encode]⟩
  simp [encodeI]

theorem FixedBits.lhu (rd : GReg) (rs1 : GReg) (imm : Half) : FixedBits.Statement (.lhu rd rs1 imm) := by
  refine fun _ => ⟨4, _, rfl, Row.matches_encodeI 0x3F 0x0 0x0 0x0 rfl ?_, by simp [encode]⟩
  simp [encodeI]

theorem FixedBits.sh (rd : GReg) (rs1 : GReg) (imm : Half) : FixedBits.Statement (.sh rd rs1 imm) := by
  refine fun _ => ⟨5, _, rfl, Row.matches_encodeI 0x3F 0x0 0x0 0x0 rfl ?_, by simp [encode]⟩
  simp [encodeI]

theorem FixedBits.lw (rd : GReg) (rs1 : GReg) (imm : Half) : FixedBits.Statement (.lw rd rs1 imm) := by
  refine fun _ => ⟨6, _, rfl, Row.matches_encodeI 0x3F 0x0 0x0 0x0 rfl ?_, by simp [encode]⟩
  simp [encodeI]

theorem FixedBits.sw (rd : GReg) (rs1 : GReg) (imm : Half) : FixedBits.Statement (.sw rd rs1 imm) := by
  refine fun _ => ⟨7, _, rfl, Row.matches_encodeI 0x3F 0x0 0x0 0x0 rfl ?_, by simp [encode]⟩
  simp [encodeI]

theorem FixedBits.lf (rd : FReg) (rs1 : GReg) (imm : Half) : FixedBits.Statement (.lf rd rs1 imm) := by
  refine fun _ => ⟨8, _, rfl, Row.matches_encodeI 0x3F 0x0 0x0 0x0 rfl ?_, by simp [encode]⟩
  simp [encodeI]

theorem FixedBits.ld (rd : FReg) (rs1 : GReg) (imm : Half) : FixedBits.Statement (.ld rd rs1 imm) := by
  intro hw
  have h := FReg.and_one_of_isPair (r := rd) (by simpa [Instr.wellFormed] using hw)
  refine ⟨9, _, rfl, Row.matches_encodeI 0x3F 0x0 0x1 0x0 rfl ?_, by simp [encode]⟩
  simp [h, encodeI]

theorem FixedBits.sf (rd : FReg) (rs1 : GReg) (imm : Half) : FixedBits.Statement (.sf rd rs1 imm) := by
  refine fun _ => ⟨10, _, rfl, Row.matches_encodeI 0x3F 0x0 0x0 0x0 rfl ?_, by simp [encode]⟩
  simp [encodeI]

theorem FixedBits.sd (rd : FReg) (rs1 : GReg) (imm : Half) : FixedBits.Statement (.sd rd rs1 imm) := by
  intro hw
  have h := FReg.and_one_of_isPair (r := rd) (by simpa [Instr.wellFormed] using hw)
  refine ⟨11, _, rfl, Row.matches_encodeI 0x3F 0x0 0x1 0x0 rfl ?_, by simp [encode]⟩
  simp [h, encodeI]

theorem FixedBits.movi2s (rd : SReg) (rs1 : GReg) : FixedBits.Statement (.movi2s rd rs1) := by
  refine fun _ => ⟨12, _, rfl, Row.matches_encodeR 0x3F 0x0 0x1F 0x0 0x7FF rfl ?_, by simp [encode]⟩
  simp [encodeR]

theorem FixedBits.movs2i (rd : GReg) (rs1 : SReg) : FixedBits.Statement (.movs2i rd rs1) := by
  refine fun _ => ⟨13, _, rfl, Row.matches_encodeR 0x3F 0x0 0x1F 0x0 0x7FF rfl ?_, by simp [encode]⟩
  simp [encodeR]

theorem FixedBits.movf (rd : FReg) (rs1 : FReg) : FixedBits.Statement (.movf rd rs1) := by
  refine fun _ => ⟨14, _, rfl, Row.matches_encodeR 0x3F 0x0 0x1F 0x0 0x7FF rfl ?_, by simp [encode]⟩
  simp [encodeR]

theorem FixedBits.movd (rd : FReg) (rs1 : FReg) : FixedBits.Statement (.movd rd rs1) := by
  intro hw
  obtain ⟨h1, h2⟩ : FReg.isPair rd = true ∧ FReg.isPair rs1 = true := by simpa [Instr.wellFormed] using hw
  refine ⟨15, _, rfl, Row.matches_encodeR 0x3F 0x1 0x1F 0x1 0x7FF rfl ?_, by simp [encode]⟩
  simp [FReg.and_one_of_isPair h1, FReg.and_one_of_isPair h2, encodeR]

theorem FixedBits.movfp2i (rd : GReg) (rs1 : FReg) : FixedBits.Statement (.movfp2i rd rs1) := by
  refine fun _ => ⟨16, _, rfl, Row.matches_encodeR 0x3F 0x0 0x1F 0x0 0x7FF rfl ?_, by simp [encode]⟩
  simp [encodeR]

theorem FixedBits.movi2fp (rd : FReg) (rs1 : GReg) : FixedBits.Statement (.movi2fp rd rs1) := by
  refine fun _ => ⟨17, _, rfl, Row.matches_encodeR 0x3F 0x0 0x1F 0x0 0x7FF rfl ?_, by simp [encode]⟩
  simp [encodeR]

theorem FixedBits.add (rd : GReg) (rs1 : GReg) (rs2 : GReg) : FixedBits.Statement (.add rd rs1 rs2) := by
  refine fun _ => ⟨18, _, rfl, Row.matches_encodeR 0x3F 0x0 0x0 0x0 0x7FF rfl ?_, by simp [encode]⟩
  simp [encodeR]

theorem FixedBits.addi (rd : GReg) (rs1 : GReg) (imm : Half) : FixedBits.Statement (.addi rd rs1 imm) := by
  refine fun _ => ⟨19, _, rfl, Row.matches_encodeI 0x3F 0x0 0x0 0x0 rfl ?_, by simp [encode]⟩
  simp [encodeI]

theorem FixedBits.addu (rd : GReg) (rs1 : GReg) (rs2 : GReg) : FixedBits.Statement (.addu rd rs1 rs2) := by
  refine fun _ => ⟨20, _, rfl, Row.matches_encodeR 0x3F 0x0 0x0 0x0 0x7FF rfl ?_, by simp [encode]⟩
  simp [encodeR]

theorem FixedBits.addui (rd : GReg) (rs1 : GReg) (imm : Half) : FixedBits.Statement (.addui rd rs1 imm) := by
  refine fun _ => ⟨21, _, rfl, Row.matches_encodeI 0x3F 0x0 0x0 0x0 rfl ?_, by simp [encode]⟩
  simp [encodeI]

theorem FixedBits.sub (rd : GReg) (rs1 : GReg) (rs2 : GReg) : FixedBits.Statement (.sub rd rs1 rs2) := by
  refine fun _ => ⟨22, _, rfl, Row.matches_encodeR 0x3F 0x0 0x0 0x0 0x7FF rfl ?_, by simp [encode]⟩
  simp [encodeR]

theorem FixedBits.subi (rd : GReg) (rs1 : GReg) (imm : Half) : FixedBits.Statement (.subi rd rs1 imm) := by
  refine fun _ => ⟨23, _, rfl, Row.matches_encodeI 0x3F 0x0 0x0 0x0 rfl ?_, by simp [encode]⟩
  simp [encodeI]

theorem FixedBits.subu (rd : GReg) (rs1 : GReg) (rs2 : GReg) : FixedBits.Statement (.subu rd rs1 rs2) := by
  refine fun _ => ⟨24, _, rfl, Row.matches_encodeR 0x3F 0x0 0x0 0x0 0x7FF rfl ?_, by simp [encode]⟩
  simp [encodeR]

theorem FixedBits.subui (rd : GReg) (rs1 : GReg) (imm : Half) : FixedBits.Statement (.subui rd rs1 imm) := by
  refine fun _ => ⟨25, _, rfl, Row.matches_encodeI 0x3F 0x0 0x0 0x0 rfl ?_, by simp [encode]⟩
  simp [encodeI]

theorem FixedBits.mult (rd : FReg) (rs1 : FReg) (rs2 : FReg) : FixedBits.Statement (.mult rd rs1 rs2) := by
  refine fun _ => ⟨26, _, rfl, Row.matches_encodeR 0x3F 0x0 0x0 0x0 0x7FF rfl ?_, by simp [encode]⟩
  simp [encodeR]

theorem FixedBits.multu (rd : FReg) (rs1 : FReg) (rs2 : FReg) : FixedBits.Statement (.multu rd rs1 rs2) := by
  refine fun _ => ⟨27, _, rfl, Row.matches_encodeR 0x3F 0x0 0x0 0x0 0x7FF rfl ?_, by simp [encode]⟩
  simp [encodeR]

theorem FixedBits.div (rd : FReg) (rs1 : FReg) (rs2 : FReg) : FixedBits.Statement (.div rd rs1 rs2) := by
  refine fun _ => ⟨28, _, rfl, Row.matches_encodeR 0x3F 0x0 0x0 0x0 0x7FF rfl ?_, by simp [encode]⟩
  simp [encodeR]

theorem FixedBits.divu (rd : FReg) (rs1 : FReg) (rs2 : FReg) : FixedBits.Statement (.divu rd rs1 rs2) := by
  refine fun _ => ⟨29, _, rfl, Row.matches_encodeR 0x3F 0x0 0x0 0x0 0x7FF rfl ?_, by simp [encode]⟩
  simp [encodeR]

theorem FixedBits.and (rd : GReg) (rs1 : GReg) (rs2 : GReg) : FixedBits.Statement (.and rd rs1 rs2) := by
  refine fun _ => ⟨30, _, rfl, Row.matches_encodeR 0x3F 0x0 0x0 0x0 0x7FF rfl ?_, by simp [encode]⟩
  simp [encodeR]

theorem FixedBits.andi (rd : GReg) (rs1 : GReg) (imm : Half) : FixedBits.Statement (.andi rd rs1 imm) := by
  refine fun _ => ⟨31, _, rfl, Row.matches_encodeI 0x3F 0x0 0x0 0x0 rfl ?_, by simp [encode]⟩
  simp [encodeI]

theorem FixedBits.or (rd : GReg) (rs1 : GReg) (rs2 : GReg) : FixedBits.Statement (.or rd rs1 rs2) := by
  refine fun _ => ⟨32, _, rfl, Row.matches_encodeR 0x3F 0x0 0x0 0x0 0x7FF rfl ?_, by simp [encode]⟩
  simp [encodeR]

theorem FixedBits.ori (rd : GReg) (rs1 : GReg) (imm : Half) : FixedBits.Statement (.ori rd rs1 imm) := by
  refine fun _ => ⟨33, _, rfl, Row.matches_encodeI 0x3F 0x0 0x0 0x0 rfl ?_, by simp [encode]⟩
  simp [encodeI]

theorem FixedBits.xor (rd : GReg) (rs1 : GReg) (rs2 : GReg) : FixedBits.Statement (.xor rd rs1 rs2) := by
  refine fun _ => ⟨34, _, rfl, Row.matches_encodeR 0x3F 0x0 0x0 0x0 0x7FF rfl ?_, by simp [encode]⟩
  simp [encodeR]

theorem FixedBits.xori (rd : GReg) (rs1 : GReg) (imm : Half) : FixedBits.Statement (.xori rd rs1 imm) := by
  refine fun _ => ⟨35, _, rfl, Row.matches_encodeI 0x3F 0x0 0x0 0x0 rfl ?_, by simp [encode]⟩
  simp [encodeI]

theorem FixedBits.lhi (rd : GReg) (imm : Half) : FixedBits.Statement (.lhi rd imm) := by
  refine fun _ => ⟨36, _, rfl, Row.matches_encodeI 0x3F 0x1F 0x0 0x0 rfl ?_, by simp [encode]⟩
  simp [encodeI]

theorem FixedBits.sll (rd : GReg) (rs1 : GReg) (rs2 : GReg) : FixedBits.Statement (.sll rd rs1 rs2) := by
  refine fun _ => ⟨37, _, rfl, Row.matches_encodeR 0x3F 0x0 0x0 0x0 0x7FF rfl ?_, by simp [encode]⟩
  simp [encodeR]

theorem FixedBits.srl (rd : GReg) (rs1 : GReg) (rs2 : GReg) : FixedBits.Statement (.srl rd rs1 rs2) := by
  refine fun _ => ⟨38, _, rfl, Row.matches_encodeR 0x3F 0x0 0x0 0x0 0x7FF rfl ?_, by simp [encode]⟩
  simp [encodeR]

theorem FixedBits.sra (rd : GReg) (rs1 : GReg) (rs2 : GReg) : FixedBits.Statement (.sra rd rs1 rs2) := by
  refine fun _ => ⟨39, _, rfl, Row.matches_encodeR 0x3F 0x0 0x0 0x0 0x7FF rfl ?_, by simp [encode]⟩
  simp [encodeR]

theorem FixedBits.slli (rd : GReg) (rs1 : GReg) (imm : Half) : FixedBits.Statement (.slli rd rs1 imm) := by
  refine fun _ => ⟨40, _, rfl, Row.matches_encodeI 0x3F 0x0 0x0 0x0 rfl ?_, by simp [encode]⟩
  simp [encodeI]

theorem FixedBits.srli (rd : GReg) (rs1 : GReg) (imm : Half) : FixedBits.Statement (.srli rd rs1 imm) := by
  refine fun _ => ⟨41, _, rfl, Row.matches_encodeI 0x3F 0x0 0x0 0x0 rfl ?_, by simp [encode]⟩
  simp [encodeI]

theorem FixedBits.srai (rd : GReg) (rs1 : GReg) (imm : Half) : FixedBits.Statement (.srai rd rs1 imm) := by
  refine fun _ => ⟨42, _, rfl, Row.matches_encodeI 0x3F 0x0 0x0 0x0 rfl ?_, by simp [encode]⟩
  simp [encodeI]

theorem FixedBits.slt (rd : GReg) (rs1 : GReg) (rs2 : GReg) : FixedBits.Statement (.slt rd rs1 rs2) := by
  refine fun _ => ⟨43, _, rfl, Row.matches_encodeR 0x3F 0x0 0x0 0x0 0x7FF rfl ?_, by simp [encode]⟩
  simp [encodeR]

theorem FixedBits.sgt (rd : GReg) (rs1 : GReg) (rs2 : GReg) : FixedBits.Statement (.sgt rd rs1 rs2) := by
  refine fun _ => ⟨44, _, rfl, Row.matches_encodeR 0x3F 0x0 0x0 0x0 0x7FF rfl ?_, by simp [encode]⟩
  simp [encodeR]

theorem FixedBits.sle (rd : GReg) (rs1 : GReg) (rs2 : GReg) : FixedBits.Statement (.sle rd rs1 rs2) := by
  refine fun _ => ⟨45, _, rfl, Row.matches_encodeR 0x3F 0x0 0x0 0x0 0x7FF rfl ?_, by simp [encode]⟩
  simp [encodeR]

theorem FixedBits.sge (rd : GReg) (rs1 : GReg) (rs2 : GReg) : FixedBits.Statement (.sge rd rs1 rs2) := by
  refine fun _ => ⟨46, _, rfl, Row.matches_encodeR 0x3F 0x0 0x0 0x0 0x7FF rfl ?_, by simp [encode]⟩
  simp [encodeR]

theorem FixedBits.seq (rd : GReg) (rs1 : GReg) (rs2 : GReg) : FixedBits.Statement (.seq rd rs1 rs2) := by
  refine fun _ => ⟨47, _, rfl, Row.matches_encodeR 0x3F 0x0 0x0 0x0 0x7FF rfl ?_, by simp [encode]⟩
  simp [encodeR]

theorem FixedBits.sne (rd : GReg) (rs1 : GReg) (rs2 : GReg) : FixedBits.Statement (.sne rd rs1 rs2) := by
  refine fun _ => ⟨48, _, rfl, Row.matches_encodeR 0x3F 0x0 0x0 0x0 0x7FF rfl ?_, by simp [encode]⟩
  simp [encodeR]

theorem FixedBits.slti (rd : GReg) (rs1 : GReg) (imm : Half) : FixedBits.Statement (.slti rd rs1 imm) := by
  refine fun _ => ⟨49, _, rfl, Row.matches_encodeI 0x3F 0x0 0x0 0x0 rfl ?_, by simp [encode]⟩
  simp [encodeI]

theorem FixedBits.sgti (rd : GReg) (rs1 : GReg) (imm : Half) : FixedBits.Statement (.sgti rd rs1 imm) := by
  refine fun _ => ⟨50, _, rfl, Row.matches_encodeI 0x3F 0x0 0x0 0x0 rfl ?_, by simp [encode]⟩
  simp [encodeI]

theorem FixedBits.slei (rd : GReg) (rs1 : GReg) (imm : Half) : FixedBits.Statement (.slei rd rs1 imm) := by
  refine fun _ => ⟨51, _, rfl, Row.matches_encodeI 0x3F 0x0 0x0 0x0 rfl ?_, by simp [encode]⟩
  simp [encodeI]

theorem FixedBits.sgei (rd : GReg) (rs1 : GReg) (imm : Half) : FixedBits.Statement (.sgei rd rs1 imm) := by
  refine fun _ => ⟨52, _, rfl, Row.matches_encodeI 0x3F 0x0 0x0 0x0 rfl ?_, by simp [encode]⟩
  simp [encodeI]

theorem FixedBits.seqi (rd : GReg) (rs1 : GReg) (imm : Half) : FixedBits.Statement (.seqi rd rs1 imm) := by
  refine fun _ => ⟨53, _, rfl, Row.matches_encodeI 0x3F 0x0 0x0 0x0 rfl ?_, by simp [encode]⟩
  simp [encodeI]

theorem FixedBits.snei (rd : GReg) (rs1 : GReg) (imm : Half) : FixedBits.Statement (.snei rd rs1 imm) := by
  refine fun _ => ⟨54, _, rfl, Row.matches_encodeI 0x3F 0x0 0x0 0x0 rfl ?_, by simp [encode]⟩
  simp [encodeI]

theorem FixedBits.beqz (rs1 : GReg) (imm : Half) : FixedBits.Statement (.beqz rs1 imm) := by
  refine fun _ => ⟨55, _, rfl, Row.matches_encodeI 0x3F 0x0 0x1F 0x0 rfl ?_, by simp [encode]⟩
  simp [encodeI]

theorem FixedBits.bnez (rs1 : GReg) (imm : Half) : FixedBits.Statement (.bnez rs1 imm) := by
  refine fun _ => ⟨56, _, rfl, Row.matches_encodeI 0x3F 0x0 0x1F 0x0 rfl ?_, by simp [encode]⟩
  simp [encodeI]

theorem FixedBits.bfpt (imm : Half) : FixedBits.Statement (.bfpt imm) := by
  refine fun _ => ⟨57, _, rfl, Row.matches_encodeI 0x3F 0x1F 0x1F 0x0 rfl ?_, by simp [encode]⟩
  simp [encodeI]

theorem FixedBits.bfpf (imm : Half) : FixedBits.Statement (.bfpf imm) := by
  refine fun _ => ⟨58, _, rfl, Row.matches_encodeI 0x3F 0x1F 0x1F 0x0 rfl ?_, by simp [encode]⟩
  simp [encodeI]

theorem FixedBits.j (off : BitVec 26) : FixedBits.Statement (.j off) := by
  refine fun _ => ⟨59, _, rfl, Row.matches_encodeJ 0x3F 0x0 rfl ?_, by simp [encode]⟩
  simp [encodeJ]

theorem FixedBits.jr (rs1 : GReg) : FixedBits.Statement (.jr rs1) := by
  refine fun _ => ⟨60, _, rfl, Row.matches_encodeI 0x3F 0x0 0x1F 0xFFFF rfl ?_, by simp [encode]⟩
  simp [encodeI]

theorem FixedBits.jal (off : BitVec 26) : FixedBits.Statement (.jal off) := by
  refine fun _ => ⟨61, _, rfl, Row.matches_encodeJ 0x3F 0x0 rfl ?_, by simp [encode]⟩
  simp [encodeJ]

theorem FixedBits.jalr (rs1 : GReg) : FixedBits.Statement (.jalr rs1) := by
  refine fun _ => ⟨62, _, rfl, Row.matches_encodeI 0x3F 0x0 0x1F 0xFFFF rfl ?_, by simp [encode]⟩
  simp [encodeI]

theorem FixedBits.trap (off : BitVec 26) : FixedBits.Statement (.trap off) := by
  refine fun _ => ⟨63, _, rfl, Row.matches_encodeJ 0x3F 0x0 rfl ?_, by simp [encode]⟩
  simp [encodeJ]

theorem FixedBits.rfe : FixedBits.Statement (.rfe) := by
  refine fun _ => ⟨64, _, rfl, Row.matches_encodeJ 0x3F 0x3FFFFFF rfl ?_, rfl⟩
  simp [encodeJ]

theorem FixedBits.addd (rd : FReg) (rs1 : FReg) (rs2 : FReg) : FixedBits.Statement (.addd rd rs1 rs2) := by
  intro hw
  obtain ⟨⟨h1, h2⟩, h3⟩ : (FReg.isPair rd = true ∧ FReg.isPair rs1 = true) ∧ FReg.isPair rs2 = true := by simpa [Instr.wellFormed] using hw
  refine ⟨65, _, rfl, Row.matches_encodeR 0x3F 0x1 0x1 0x1 0x7FF rfl ?_, by simp [encode]⟩
  simp [FReg.and_one_of_isPair h1, FReg.and_one_of_isPair h2, FReg.and_one_of_isPair h3, encodeR]

theorem FixedBits.addf (rd : FReg) (rs1 : FReg) (rs2 : FReg) : FixedBits.Statement (.addf rd rs1 rs2) := by
  refine fun _ => ⟨66, _, rfl, Row.matches_encodeR 0x3F 0x0 0x0 0x0 0x7FF rfl ?_, by simp [encode]⟩
  simp [encodeR]

theorem FixedBits.subd (rd : FReg) (rs1 : FReg) (rs2 : FReg) : FixedBits.Statement (.subd rd rs1 rs2) := by
  intro hw
  obtain ⟨⟨h1, h2⟩, h3⟩ : (FReg.isPair rd = true ∧ FReg.isPair rs1 = true) ∧ FReg.isPair rs2 = true := by simpa [Instr.wellFormed] using hw
  refine ⟨67, _, rfl, Row.matches_encodeR 0x3F 0x1 0x1 0x1 0x7FF rfl ?_, by simp [encode]⟩
  simp [FReg.and_one_of_isPair h1, FReg.and_one_of_isPair h2, FReg.and_one_of_isPair h3, encodeR]

theorem FixedBits.subf (rd : FReg) (rs1 : FReg) (rs2 : FReg) : FixedBits.Statement (.subf rd rs1 rs2) := by
  refine fun _ => ⟨68, _, rfl, Row.matches_encodeR 0x3F 0x0 0x0 0x0 0x7FF rfl ?_, by simp [encode]⟩
  simp [encodeR]

theorem FixedBits.multd (rd : FReg) (rs1 : FReg) (rs2 : FReg) : FixedBits.Statement (.multd rd rs1 rs2) := by
  intro hw
  obtain ⟨⟨h1, h2⟩, h3⟩ : (FReg.isPair rd = true ∧ FReg.isPair rs1 = true) ∧ FReg.isPair rs2 = true := by simpa [Instr.wellFormed] using hw
  refine ⟨69, _, rfl, Row.matches_encodeR 0x3F 0x1 0x1 0x1 0x7FF rfl ?_, by simp [encode]⟩
  simp [FReg.and_one_of_isPair h1, FReg.and_one_of_isPair h2, FReg.and_one_of_isPair h3, encodeR]

theorem FixedBits.multf (rd : FReg) (rs1 : FReg) (rs2 : FReg) : FixedBits.Statement (.multf rd rs1 rs2) := by
  refine fun _ => ⟨70, _, rfl, Row.matches_encodeR 0x3F 0x0 0x0 0x0 0x7FF rfl ?_, by simp [encode]⟩
  simp [encodeR]

theorem FixedBits.divd (rd : FReg) (rs1 : FReg) (rs2 : FReg) : FixedBits.Statement (.divd rd rs1 rs2) := by
  intro hw
  obtain ⟨⟨h1, h2⟩, h3⟩ : (FReg.isPair rd = true ∧ FReg.isPair rs1 = true) ∧ FReg.isPair rs2 = true := by simpa [Instr.wellFormed] using hw
  refine ⟨71, _, rfl, Row.matches_encodeR 0x3F 0x1 0x1 0x1 0x7FF rfl ?_, by simp [encode]⟩
  simp [FReg.and_one_of_isPair h1, FReg.and_one_of_isPair h2, FReg.and_one_of_isPair h3, encodeR]

theorem FixedBits.divf (rd : FReg) (rs1 : FReg) (rs2 : FReg) : FixedBits.Statement (.divf rd rs1 rs2) := by
  refine fun _ => ⟨72, _, rfl, Row.matches_encodeR 0x3F 0x0 0x0 0x0 0x7FF rfl ?_, by simp [encode]⟩
  simp [encodeR]

theorem FixedBits.cvtf2d (rd : FReg) (rs1 : FReg) : FixedBits.Statement (.cvtf2d rd rs1) := by
  intro hw
  have h := FReg.and_one_of_isPair (r := rd) (by simpa [Instr.wellFormed] using hw)
  refine ⟨73, _, rfl, Row.matches_encodeR 0x3F 0x0 0x1F 0x1 0x7FF rfl ?_, by simp [encode]⟩
  simp [h, encodeR]

theorem FixedBits.cvtf2i (rd : FReg) (rs1 : FReg) : FixedBits.Statement (.cvtf2i rd rs1) := by
  refine fun _ => ⟨74, _, rfl, Row.matches_encodeR 0x3F 0x0 0x1F 0x0 0x7FF rfl ?_, by simp [encode]⟩
  simp [encodeR]

theorem FixedBits.cvtd2f (rd : FReg) (rs1 : FReg) : FixedBits.Statement (.cvtd2f rd rs1) := by
  intro hw
  have h := FReg.and_one_of_isPair (r := rs1) (by simpa [Instr.wellFormed] using hw)
  refine ⟨75, _, rfl, Row.matches_encodeR 0x3F 0x1 0x1F 0x0 0x7FF rfl ?_, by simp [encode]⟩
  simp [h, encodeR]

theorem FixedBits.cvtd2i (rd : FReg) (rs1 : FReg) : FixedBits.Statement (.cvtd2i rd rs1) := by
  intro hw
  have h := FReg.and_one_of_isPair (r := rs1) (by simpa [Instr.wellFormed] using hw)
  refine ⟨76, _, rfl, Row.matches_encodeR 0x3F 0x1 0x1F 0x0 0x7FF rfl ?_, by simp [encode]⟩
  simp [h, encodeR]

theorem FixedBits.cvti2f (rd : FReg) (rs1 : FReg) : FixedBits.Statement (.cvti2f rd rs1) := by
  refine fun _ => ⟨77, _, rfl, Row.matches_encodeR 0x3F 0x0 0x1F 0x0 0x7FF rfl ?_, by simp [encode]⟩
  simp [encodeR]

theorem FixedBits.cvti2d (rd : FReg) (rs1 : FReg) : FixedBits.Statement (.cvti2d rd rs1) := by
  intro hw
  have h := FReg.and_one_of_isPair (r := rd) (by simpa [Instr.wellFormed] using hw)
  refine ⟨78, _, rfl, Row.matches_encodeR 0x3F 0x0 0x1F 0x1 0x7FF rfl ?_, by simp [encode]⟩
  simp [h, encodeR]

theorem FixedBits.ltd (rs1 : FReg) (rs2 : FReg) : FixedBits.Statement (.ltd rs1 rs2) := by
  intro hw
  obtain ⟨h1, h2⟩ : FReg.isPair rs1 = true ∧ FReg.isPair rs2 = true := by simpa [Instr.wellFormed] using hw
  refine ⟨79, _, rfl, Row.matches_encodeR 0x3F 0x1 0x1 0x1F 0x7FF rfl ?_, by simp [encode]⟩
  simp [FReg.and_one_of_isPair h1, FReg.and_one_of_isPair h2, encodeR]

theorem FixedBits.gtd (rs1 : FReg) (rs2 : FReg) : FixedBits.Statement (.gtd rs1 rs2) := by
  intro hw
  obtain ⟨h1, h2⟩ : FReg.isPair rs1 = true ∧ FReg.isPair rs2 = true := by simpa [Instr.wellFormed] using hw
  refine ⟨80, _, rfl, Row.matches_encodeR 0x3F 0x1 0x1 0x1F 0x7FF rfl ?_, by simp [encode]⟩
  simp [FReg.and_one_of_isPair h1, FReg.and_one_of_isPair h2, encodeR]

theorem FixedBits.led (rs1 : FReg) (rs2 : FReg) : FixedBits.Statement (.led rs1 rs2) := by
  intro hw
  obtain ⟨h1, h2⟩ : FReg.isPair rs1 = true ∧ FReg.isPair rs2 = true := by simpa [Instr.wellFormed] using hw
  refine ⟨81, _, rfl, Row.matches_encodeR 0x3F 0x1 0x1 0x1F 0x7FF rfl ?_, by simp [encode]⟩
  simp [FReg.and_one_of_isPair h1, FReg.and_one_of_isPair h2, encodeR]

theorem FixedBits.ged (rs1 : FReg) (rs2 : FReg) : FixedBits.Statement (.ged rs1 rs2) := by
  intro hw
  obtain ⟨h1, h2⟩ : FReg.isPair rs1 = true ∧ FReg.isPair rs2 = true := by simpa [Instr.wellFormed] using hw
  refine ⟨82, _, rfl, Row.matches_encodeR 0x3F 0x1 0x1 0x1F 0x7FF rfl ?_, by simp [encode]⟩
  simp [FReg.and_one_of_isPair h1, FReg.and_one_of_isPair h2, encodeR]

theorem FixedBits.eqd (rs1 : FReg) (rs2 : FReg) : FixedBits.Statement (.eqd rs1 rs2) := by
  intro hw
  obtain ⟨h1, h2⟩ : FReg.isPair rs1 = true ∧ FReg.isPair rs2 = true := by simpa [Instr.wellFormed] using hw
  refine ⟨83, _, rfl, Row.matches_encodeR 0x3F 0x1 0x1 0x1F 0x7FF rfl ?_, by simp [encode]⟩
  simp [FReg.and_one_of_isPair h1, FReg.and_one_of_isPair h2, encodeR]

theorem FixedBits.ned (rs1 : FReg) (rs2 : FReg) : FixedBits.Statement (.ned rs1 rs2) := by
  intro hw
  obtain ⟨h1, h2⟩ : FReg.isPair rs1 = true ∧ FReg.isPair rs2 = true := by simpa [Instr.wellFormed] using hw
  refine ⟨84, _, rfl, Row.matches_encodeR 0x3F 0x1 0x1 0x1F 0x7FF rfl ?_, by simp [encode]⟩
  simp [FReg.and_one_of_isPair h1, FReg.and_one_of_isPair h2, encodeR]

theorem FixedBits.ltf (rs1 : FReg) (rs2 : FReg) : FixedBits.Statement (.ltf rs1 rs2) := by
  refine fun _ => ⟨85, _, rfl, Row.matches_encodeR 0x3F 0x0 0x0 0x1F 0x7FF rfl ?_, by simp [encode]⟩
  simp [encodeR]

theorem FixedBits.gtf (rs1 : FReg) (rs2 : FReg) : FixedBits.Statement (.gtf rs1 rs2) := by
  refine fun _ => ⟨86, _, rfl, Row.matches_encodeR 0x3F 0x0 0x0 0x1F 0x7FF rfl ?_, by simp [encode]⟩
  simp [encodeR]

theorem FixedBits.lef (rs1 : FReg) (rs2 : FReg) : FixedBits.Statement (.lef rs1 rs2) := by
  refine fun _ => ⟨87, _, rfl, Row.matches_encodeR 0x3F 0x0 0x0 0x1F 0x7FF rfl ?_, by simp [encode]⟩
  simp [encodeR]

theorem FixedBits.gef (rs1 : FReg) (rs2 : FReg) : FixedBits.Statement (.gef rs1 rs2) := by
  refine fun _ => ⟨88, _, rfl, Row.matches_encodeR 0x3F 0x0 0x0 0x1F 0x7FF rfl ?_, by simp [encode]⟩
  simp [encodeR]

theorem FixedBits.eqf (rs1 : FReg) (rs2 : FReg) : FixedBits.Statement (.eqf rs1 rs2) := by
  refine fun _ => ⟨89, _, rfl, Row.matches_encodeR 0x3F 0x0 0x0 0x1F 0x7FF rfl ?_, by simp [encode]⟩
  simp [encodeR]

theorem FixedBits.nef (rs1 : FReg) (rs2 : FReg) : FixedBits.Statement (.nef rs1 rs2) := by
  refine fun _ => ⟨90, _, rfl, Row.matches_encodeR 0x3F 0x0 0x0 0x1F 0x7FF rfl ?_, by simp [encode]⟩
  simp [encodeR]

end Sys2Proof.Laws
end

