-- ==== Sys2Proof/Safety.lean ====
section
/-! DEFINITION. Sys2Proof/Safety.lean: the terms that claims about the machine are stated in. First what may happen
between a state `s` and the state `t` after it, each part of the state said by its own read (never by the update that a
meaning uses); then the invariant; then the outcome of a step as a user-level program sees it. The model's own counter
`draws` is in none of the first group unless a name says so. -/

namespace Sys2Proof.Machine

/-! ## What a step leaves unchanged -/

/-- Every GPR reads as before. -/
def SameGprs (s t : State) : Prop := ∀ i, t.readR i = s.readR i

/-- Every FPR reads as before. -/
def SameFprs (s t : State) : Prop := ∀ i, t.readF i = s.readF i

/-- Every byte of memory reads as before, and the same bytes count as stored in this run. -/
def SameMemory (s t : State) : Prop := (∀ a, t.readByte a = s.readByte a) ∧ t.stored = s.stored

/-- IAR, ECR, EDR and the mode are as before. -/
def SameTrapState (s t : State) : Prop :=
  t.iar = s.iar ∧ t.ecr = s.ecr ∧ t.edr = s.edr ∧ t.mode = s.mode

/-! ## What a step does -/

/-- `t` is `s` with `R[rd]` written (nothing where `rd` is R0) and `pc` advanced. -/
def GprResult (s t : State) (rd : GReg) (v : Word) : Prop :=
  (∀ i, t.readR i = if i = 0#5 then 0#32 else if i = rd then v else s.readR i) ∧ t.pc = s.pc + 4#32 ∧
  SameFprs s t ∧ t.fpsrC = s.fpsrC ∧ SameTrapState s t ∧ SameMemory s t ∧ t.draws = s.draws ∧ t.platform = s.platform

/-- `t` is `s` with `F[rd]` written and `pc` advanced; whether a draw was made is not said. -/
def FprWritten (s t : State) (rd : FReg) (v : Word) : Prop :=
  (∀ i, t.readF i = if i = rd then v else s.readF i) ∧ t.pc = s.pc + 4#32 ∧
  SameGprs s t ∧ t.fpsrC = s.fpsrC ∧ SameTrapState s t ∧ SameMemory s t ∧ t.platform = s.platform

/-- `t` is `s` with `F[rd]` written and `pc` advanced. -/
def FprResult (s t : State) (rd : FReg) (v : Word) : Prop := FprWritten s t rd v ∧ t.draws = s.draws

/-- `t` is `s` with the pair `F[rd]`, `F[rd+1]` written, the high half to `F[rd]`, and `pc` advanced; whether a draw was
made is not said. -/
def PairWritten (s t : State) (rd : FReg) (v : DWord) : Prop :=
  (∀ i, t.readF i =
    if i = rd then v.extractLsb' 32 32 else if i = rd + 1#5 then v.extractLsb' 0 32 else s.readF i) ∧
  t.pc = s.pc + 4#32 ∧
  SameGprs s t ∧ t.fpsrC = s.fpsrC ∧ SameTrapState s t ∧ SameMemory s t ∧ t.platform = s.platform

/-- `t` is `s` with the pair `F[rd]`, `F[rd+1]` written, the high half to `F[rd]`, and `pc` advanced. -/
def PairResult (s t : State) (rd : FReg) (v : DWord) : Prop := PairWritten s t rd v ∧ t.draws = s.draws

/-- `t` is `s` with the comparison bit written and `pc` advanced. -/
def FlagResult (s t : State) (b : Bool) : Prop :=
  t.fpsrC = b ∧ t.pc = s.pc + 4#32 ∧
  SameGprs s t ∧ SameFprs s t ∧ SameTrapState s t ∧ SameMemory s t ∧ t.draws = s.draws ∧ t.platform = s.platform

/-- `t` is `s` with IAR, ECR and EDR holding the given words and `pc` advanced. -/
def SpecialResult (s t : State) (iar ecr edr : Word) : Prop :=
  t.iar = iar ∧ t.ecr = ecr ∧ t.edr = edr ∧ t.mode = s.mode ∧ t.pc = s.pc + 4#32 ∧
  SameGprs s t ∧ SameFprs s t ∧ t.fpsrC = s.fpsrC ∧ SameMemory s t ∧ t.draws = s.draws ∧ t.platform = s.platform

/-- `t` is `s` after RFE: `pc` from IAR, the mode `user`, nothing else. -/
def ReturnResult (s t : State) : Prop :=
  t.pc = s.iar ∧ t.mode = .user ∧ t.iar = s.iar ∧ t.ecr = s.ecr ∧ t.edr = s.edr ∧
  SameGprs s t ∧ SameFprs s t ∧ t.fpsrC = s.fpsrC ∧ SameMemory s t ∧ t.draws = s.draws ∧ t.platform = s.platform

/-- `t` is `s` with the `n` bytes at `a` written, the low `8n` bits of `v` with the most significant byte at `a`, and
`pc` advanced. -/
def StoreResult {w : Nat} (s t : State) (a : Word) (n : Nat) (v : BitVec w) : Prop :=
  (∀ b : Word, t.readByte b =
    if a.toNat ≤ b.toNat ∧ b.toNat < a.toNat + n then some (v.extractLsb' (8 * (n - 1 - (b.toNat - a.toNat))) 8)
    else s.readByte b) ∧
  (∀ b, b ∈ t.stored ↔ b ∈ s.stored ∨ a.toNat ≤ b ∧ b < a.toNat + n) ∧ t.pc = s.pc + 4#32 ∧
  SameGprs s t ∧ SameFprs s t ∧ t.fpsrC = s.fpsrC ∧ SameTrapState s t ∧ t.draws = s.draws ∧ t.platform = s.platform

/-- `t` is `s` with another `pc`. -/
def JumpResult (s t : State) (target : Word) : Prop :=
  t.pc = target ∧ SameGprs s t ∧ SameFprs s t ∧ t.fpsrC = s.fpsrC ∧ SameTrapState s t ∧ SameMemory s t ∧
  t.draws = s.draws ∧ t.platform = s.platform

/-- `t` is `s` with another `pc` and the link in R31. -/
def LinkResult (s t : State) (target : Word) : Prop :=
  t.pc = target ∧ (∀ i, t.readR i = if i = 31#5 then s.pc + 4#32 else s.readR i) ∧
  SameFprs s t ∧ t.fpsrC = s.fpsrC ∧ SameTrapState s t ∧ SameMemory s t ∧ t.draws = s.draws ∧ t.platform = s.platform

/-- `t` is the state after trap entry from `s` (60_exceptions.md R214): the five writes and nothing else. -/
def TrapResult (s t : State) (c : Cause) (info : Word) : Prop :=
  t.iar = (if c = .trap then s.pc + 4#32 else s.pc) ∧ t.ecr = causeCode c ∧ t.edr = info ∧ t.mode = .system ∧
  t.pc = s.platform.vector c info ∧
  SameGprs s t ∧ SameFprs s t ∧ t.fpsrC = s.fpsrC ∧ SameMemory s t ∧ t.draws = s.draws ∧ t.platform = s.platform

/-- The instruction answers a next state, one that the predicate describes. -/
def Answers (i : Instr) (s : State) (p : State → Prop) : Prop := ∃ t, exec i s = .next t ∧ p t

/-- The `n` bytes at `a` all have a value, and big-endian they are the low `8n` bits of `v` (20_memory.md R30). -/
def HoldsValue {w : Nat} (s : State) (a : Word) (n : Nat) (v : BitVec w) : Prop :=
  ∀ k < n, s.readByte (a + BitVec.ofNat 32 k) = some (v.extractLsb' (8 * (n - 1 - k)) 8)

/-- An access of `n` bytes at `a` is aligned and touches RAM only (20_memory.md R33, R36, R37). -/
def Accessible (s : State) (a : Word) (n : Nat) : Prop :=
  a.toNat % n = 0 ∧ s.platform.allRam a.toNat n = true

/-- The exceptions of an instruction that accesses `n` bytes at `a`, in the order they are tested (20_memory.md R34, R36,
R37). -/
def AccessTraps (i : Instr) (s : State) (a : Word) (n : Nat) : Prop :=
  (a.toNat % n ≠ 0 → Answers i s (TrapResult s · .dataMisaligned a)) ∧
  (a.toNat % n = 0 → s.platform.allRam a.toNat n = false → Answers i s (TrapResult s · .dataBusError a))

/-! ## Quiet NaNs (43_floating_point.md R170) -/

/-- A quiet NaN pattern of single precision: exponent all ones, quiet bit 1. -/
def IsQuietNaN32 (v : Word) : Prop := v.extractLsb' 22 9 = 0x1FF#9

/-- A quiet NaN pattern of double precision. -/
def IsQuietNaN64 (v : DWord) : Prop := v.extractLsb' 51 12 = 0xFFF#12

/-! ## Real numbers -/

/-- The rational number of a finite value (0 for the others, which no statement reads). -/
def FloatValue.toRat : FloatValue → ℚ
  | .finite s n d => (if s then -1 else 1) * (n / d)
  | .infinity _ => 0
  | .nan => 0

/-- How many smallest subnormals the magnitude bits `m` of a format stand for (43_floating_point.md R170); the bits of
infinity stand for the number that would come next. -/
def FloatFormat.units (fmt : FloatFormat) (m : Nat) : Nat :=
  if m / 2 ^ fmt.fracBits = 0 then m
  else (2 ^ fmt.fracBits + m % 2 ^ fmt.fracBits) * 2 ^ (m / 2 ^ fmt.fracBits - 1)

/-- `r` are the magnitude bits of `num / den` rounded to nearest, ties to even (43_floating_point.md R171): no magnitude
bits up to those of infinity stand for a nearer number, and none but even ones for as near a number as others do.
Distances are counted in smallest subnormals over `den`. -/
def FloatFormat.NearestEven (fmt : FloatFormat) (num den r : Nat) : Prop :=
  let error (k : Nat) : Nat := (((num * 2 ^ fmt.scale : Nat) : Int) - (fmt.units k * den : Nat)).natAbs
  r ≤ fmt.infinityBits ∧ ∀ m ≤ fmt.infinityBits, error r ≤ error m ∧ (m ≠ r → error r = error m → r % 2 = 0)

/-! ## The fetched instruction -/

/-- The four bytes at `pc` are RAM, were not stored in this run, are aligned, and hold the word `w`. -/
def FetchesWord (s : State) (w : Word) : Prop :=
  s.pc.toNat % 4 = 0 ∧ s.platform.allRam s.pc.toNat 4 = true ∧
  (∀ k < 4, s.pc.toNat + k ∉ s.stored) ∧
  s.readByte s.pc = some (w.extractLsb' 24 8) ∧ s.readByte (s.pc + 1#32) = some (w.extractLsb' 16 8) ∧
  s.readByte (s.pc + 2#32) = some (w.extractLsb' 8 8) ∧ s.readByte (s.pc + 3#32) = some (w.extractLsb' 0 8)

/-- The step at `s` runs the instruction `i`: the word at `pc` is fetched and decodes to `i`. -/
def RunsInstr (s : State) (i : Instr) : Prop := ∃ w, FetchesWord s w ∧ decode w = .ok i

/-! ## What each instruction may write (10_state.md R12, R17, R19, 20_memory.md R35) -/

/-- The part of the state, besides `pc`, that an instruction writes when it raises no exception. -/
inductive Part where
  /-- A GPR (of JAL and JALR, R31). -/
  | gpr (rd : GReg)
  /-- An FPR. -/
  | fpr (rd : FReg)
  /-- A DP pair, `F[rd]` and `F[rd+1]`. -/
  | pair (rd : FReg)
  /-- The comparison bit. -/
  | flag
  /-- The special register of this number. -/
  | special (k : SReg)
  /-- The `n` bytes at the effective address of this base and displacement. -/
  | memory (rs1 : GReg) (imm : Half) (n : Nat)
  /-- The mode. -/
  | mode
  /-- Nothing else. -/
  | pc
  deriving DecidableEq, Repr

/-- Whether a part of the state before an instruction, its registers read in `s`, holds the byte at address `b`. -/
def Part.HoldsByte (p : Part) (s : State) (b : Nat) : Prop :=
  ∃ rs1 imm n, p = .memory rs1 imm n ∧ (effectiveAddress (s.readR rs1) imm).toNat ≤ b ∧
    b < (effectiveAddress (s.readR rs1) imm).toNat + n

/-- The part that each instruction writes. -/
def partWritten : Instr → Part
  | .lb rd _ _ => .gpr rd
  | .lbu rd _ _ => .gpr rd
  | .sb _ rs1 imm => .memory rs1 imm 1
  | .lh rd _ _ => .gpr rd
  | .lhu rd _ _ => .gpr rd
  | .sh _ rs1 imm => .memory rs1 imm 2
  | .lw rd _ _ => .gpr rd
  | .sw _ rs1 imm => .memory rs1 imm 4
  | .lf rd _ _ => .fpr rd
  | .ld rd _ _ => .pair rd
  | .sf _ rs1 imm => .memory rs1 imm 4
  | .sd _ rs1 imm => .memory rs1 imm 8
  | .movi2s rd _ => .special rd
  | .movs2i rd _ => .gpr rd
  | .movf rd _ => .fpr rd
  | .movd rd _ => .pair rd
  | .movfp2i rd _ => .gpr rd
  | .movi2fp rd _ => .fpr rd
  | .add rd _ _ => .gpr rd
  | .addi rd _ _ => .gpr rd
  | .addu rd _ _ => .gpr rd
  | .addui rd _ _ => .gpr rd
  | .sub rd _ _ => .gpr rd
  | .subi rd _ _ => .gpr rd
  | .subu rd _ _ => .gpr rd
  | .subui rd _ _ => .gpr rd
  | .mult rd _ _ => .fpr rd
  | .multu rd _ _ => .fpr rd
  | .div rd _ _ => .fpr rd
  | .divu rd _ _ => .fpr rd
  | .and rd _ _ => .gpr rd
  | .andi rd _ _ => .gpr rd
  | .or rd _ _ => .gpr rd
  | .ori rd _ _ => .gpr rd
  | .xor rd _ _ => .gpr rd
  | .xori rd _ _ => .gpr rd
  | .lhi rd _ => .gpr rd
  | .sll rd _ _ => .gpr rd
  | .srl rd _ _ => .gpr rd
  | .sra rd _ _ => .gpr rd
  | .slli rd _ _ => .gpr rd
  | .srli rd _ _ => .gpr rd
  | .srai rd _ _ => .gpr rd
  | .slt rd _ _ => .gpr rd
  | .sgt rd _ _ => .gpr rd
  | .sle rd _ _ => .gpr rd
  | .sge rd _ _ => .gpr rd
  | .seq rd _ _ => .gpr rd
  | .sne rd _ _ => .gpr rd
  | .slti rd _ _ => .gpr rd
  | .sgti rd _ _ => .gpr rd
  | .slei rd _ _ => .gpr rd
  | .sgei rd _ _ => .gpr rd
  | .seqi rd _ _ => .gpr rd
  | .snei rd _ _ => .gpr rd
  | .beqz _ _ => .pc
  | .bnez _ _ => .pc
  | .bfpt _ => .pc
  | .bfpf _ => .pc
  | .j _ => .pc
  | .jr _ => .pc
  | .jal _ => .gpr 31#5
  | .jalr _ => .gpr 31#5
  | .trap _ => .pc
  | .rfe => .mode
  | .addd rd _ _ => .pair rd
  | .addf rd _ _ => .fpr rd
  | .subd rd _ _ => .pair rd
  | .subf rd _ _ => .fpr rd
  | .multd rd _ _ => .pair rd
  | .multf rd _ _ => .fpr rd
  | .divd rd _ _ => .pair rd
  | .divf rd _ _ => .fpr rd
  | .cvtf2d rd _ => .pair rd
  | .cvtf2i rd _ => .fpr rd
  | .cvtd2f rd _ => .fpr rd
  | .cvtd2i rd _ => .fpr rd
  | .cvti2f rd _ => .fpr rd
  | .cvti2d rd _ => .pair rd
  | .ltd _ _ => .flag
  | .gtd _ _ => .flag
  | .led _ _ => .flag
  | .ged _ _ => .flag
  | .eqd _ _ => .flag
  | .ned _ _ => .flag
  | .ltf _ _ => .flag
  | .gtf _ _ => .flag
  | .lef _ _ => .flag
  | .gef _ _ => .flag
  | .eqf _ _ => .flag
  | .nef _ _ => .flag

/-! ## The invariant -/

/-- What every step keeps: memory is in its canonical form, the record of stored bytes is strictly rising, and every
byte in it is RAM and holds a value. -/
abbrev State.Inv (s : State) : Prop :=
  s.mem.wf ∧ s.stored.Pairwise (· < ·) ∧
  ∀ a ∈ s.stored, (s.mem.read a).isSome = true ∧ s.platform.isRam a = true

/-! ## A user-level program's view (60_exceptions.md R223) -/

/-- The outcome of a step of a program in `user` mode where no operating-system code is modelled: every trap entry is
terminal. -/
inductive UserOutcome where
  | running (s : State)
  /-- `Fault(E, info, pc)`, the cause as its code. -/
  | fault (code info pc : Word)
  /-- `Trapped(n, pc + 4)`. -/
  | trapped (n resume : Word)
  | stopped (f : Fault)
  | refused (r : Refusal)
  deriving DecidableEq, Repr

/-- One step read as 60_exceptions.md R223 recommends: from `user` mode the mode becomes `system` by trap entry only
(10_state.md R21), which has just written what the terminal outcome names. -/
def userOutcome (s : State) : UserOutcome :=
  match step s with
  | .next t =>
    if s.mode = .user ∧ t.mode = .system then
      if t.ecr = causeCode .trap then .trapped t.edr t.iar else .fault t.ecr t.edr t.iar
    else .running t
  | .fault f => .stopped f
  | .refused r => .refused r

end Sys2Proof.Machine
end

