-- ==== Sys2Proof/Certificates/Slice0/Obligations.lean ====
section
/-! DEFINITION. Sys2Proof/Certificates/Slice0/Obligations.lean: the statements for the provers. Each says what a rule of
spec/ says; the terms it uses are those of Sys2Proof/Safety.lean. -/

open Sys2Proof Sys2Proof.Machine

/-! ## Encoding -/

/-- Decoding an encoded well-formed instruction gives it back, for all 91 instructions and every operand value
(30_encoding.md R57 against R51 to R61). -/
def Obligations.DecodeOfEncode : Prop :=
  ∀ i : Instr, i.wellFormed = true → decode (encode i) = .ok i

/-- A word that decodes is the encoding of what it decodes to, which is well formed: no bit of an instruction word is
ignored, so every must-be-zero bit is tested (30_encoding.md R60). -/
def Obligations.EncodeOfDecode : Prop :=
  ∀ (w : Word) (i : Instr), decode w = .ok i → encode i = w ∧ i.wellFormed = true

/-- No word matches two rows of the table (30_encoding.md R57). -/
def Obligations.NoWordMatchesTwoRows : Prop :=
  ∀ (w : Word) (j k : Nat) (q r : Row), opcodeTable[j]? = some q → opcodeTable[k]? = some r →
    q.matchesWord w = true → r.matchesWord w = true → j = k

/-- An instruction with an odd register in a DP position has a reserved word (30_encoding.md R60), and running the term
raises IllegalInstruction of that word and changes nothing else (log 13). -/
def Obligations.OddPairIsReserved : Prop :=
  ∀ (i : Instr) (s : State), i.wellFormed = false →
    decode (encode i) = .error (.reservedEncoding (encode i)) ∧
    Answers i s (TrapResult s · .illegalInstruction (encode i))

/-- Words written out bit by bit from 30_encoding.md, one of each format and class, decode to what they stand for; the
all-zero word is reserved. -/
def Obligations.SampleWordsDecode : Prop :=
  decode 0b100011_00010_00001_1111111111111100#32 = .ok (.lw 1 2 0xFFFC) ∧
  decode 0b000000_00010_00011_00001_00000100000#32 = .ok (.add 1 2 3) ∧
  decode 0b000010_11111111111111111111111000#32 = .ok (.j 0x3FFFFF8) ∧
  decode 0b000001_00010_00100_00000_00000000100#32 = .ok (.addd 0 2 4) ∧
  decode 0b000000_00101_00000_00001_00000110000#32 = .ok (.movi2s 1 5) ∧
  decode 0b010000_00000000000000000000000000#32 = .ok .rfe ∧
  decode 0b000000_00000_00000_00000_00000000000#32 = .error (.reservedEncoding 0#32)

/-! ## One step -/

/-- Where the word at `pc` is fetched and decodes to `i`, the step is `exec` of `i` at that very state (00_scope.md R4):
the machine adds nothing around it, each meaning moves `pc` itself. -/
def Obligations.StepRunsDecoded : Prop :=
  ∀ (s : State) (w : Word) (i : Instr), FetchesWord s w → decode w = .ok i → step s = exec i s

/-- Fetch, in the order of 20_memory.md R38: a misaligned address raises FetchMisaligned of it, then an absent byte
FetchBusError, then a byte stored in this run is REFUSED, then the word is the four bytes, big-endian. -/
def Obligations.FetchFollowsItsOrder : Prop :=
  ∀ (s : State) (a : Word),
    (a.toNat % 4 ≠ 0 → s.fetch a = .raises .fetchMisaligned a) ∧
    (a.toNat % 4 = 0 → (∃ k < 4, s.platform.isRam (a.toNat + k) = false) → s.fetch a = .raises .fetchBusError a) ∧
    (a.toNat % 4 = 0 → (∀ k < 4, s.platform.isRam (a.toNat + k) = true) → (∃ k < 4, a.toNat + k ∈ s.stored) →
      s.fetch a = .refuses (.storedCode a)) ∧
    (∀ w : Word, a.toNat % 4 = 0 → (∀ k < 4, s.platform.isRam (a.toNat + k) = true) →
      (∀ k < 4, a.toNat + k ∉ s.stored) → HoldsValue s a 4 w → s.fetch a = .done w)

/-- A failing fetch is a trap entry with `pc` as its datum, and a fetch of stored bytes is refused, whatever the bytes
(20_memory.md R34, R38, R45). -/
def Obligations.StepTakesFetchExceptions : Prop :=
  ∀ s : State,
    (s.pc.toNat % 4 ≠ 0 → ∃ t, step s = .next t ∧ TrapResult s t .fetchMisaligned s.pc) ∧
    (s.pc.toNat % 4 = 0 → s.platform.allRam s.pc.toNat 4 = false →
      ∃ t, step s = .next t ∧ TrapResult s t .fetchBusError s.pc) ∧
    (s.pc.toNat % 4 = 0 → s.platform.allRam s.pc.toNat 4 = true → (∃ k < 4, s.pc.toNat + k ∈ s.stored) →
      step s = .refused (.storedCode s.pc))

/-- A reserved word raises IllegalInstruction of itself, in either mode, and changes no other state (30_encoding.md
R62). -/
def Obligations.ReservedWordRaises : Prop :=
  ∀ (s : State) (w : Word), FetchesWord s w → (∀ i : Instr, decode w ≠ .ok i) →
    ∃ t, step s = .next t ∧ TrapResult s t .illegalInstruction w

/-- THE MODEL'S CHOICE (log 5): an aligned access to RAM of which some byte has no value stops the machine by the fault
of that name, in a load of each size and in a fetch. -/
def Obligations.UnwrittenByteStops : Prop :=
  ∀ (rd rs1 : BitVec 5) (imm : Half) (s : State),
    let a := s.readR rs1 + imm.signExtend 32
    (∀ n, n = 1 ∨ n = 2 ∨ n = 4 ∨ n = 8 → Accessible s a n → (∃ k < n, s.readByte (a + BitVec.ofNat 32 k) = none) →
      (n = 1 → exec (.lb rd rs1 imm) s = .fault (.unwrittenByte a) ∧ exec (.lbu rd rs1 imm) s = .fault (.unwrittenByte a)) ∧
      (n = 2 → exec (.lh rd rs1 imm) s = .fault (.unwrittenByte a) ∧ exec (.lhu rd rs1 imm) s = .fault (.unwrittenByte a)) ∧
      (n = 4 → exec (.lw rd rs1 imm) s = .fault (.unwrittenByte a) ∧ exec (.lf rd rs1 imm) s = .fault (.unwrittenByte a)) ∧
      (n = 8 → rd.getLsbD 0 = false → exec (.ld rd rs1 imm) s = .fault (.unwrittenByte a))) ∧
    (Accessible s s.pc 4 → (∀ k < 4, s.pc.toNat + k ∉ s.stored) →
      (∃ k < 4, s.readByte (s.pc + BitVec.ofNat 32 k) = none) → step s = .fault (.unwrittenByte s.pc))

/-! ## Exceptions -/

/-- Trap entry (60_exceptions.md R214) with the codes of R211: IAR, ECR, EDR, the mode and `pc` are written, nothing else
changes, and only TRAP resumes after itself. -/
def Obligations.TrapEntryWritesFiveThings : Prop :=
  ∀ (s : State) (c : Cause) (info : Word),
    TrapResult s (s.takeException c info) c info ∧
    causeCode .illegalInstruction = 1#32 ∧ causeCode .privilegedInstruction = 2#32 ∧
    causeCode .fetchMisaligned = 3#32 ∧ causeCode .fetchBusError = 4#32 ∧ causeCode .dataMisaligned = 5#32 ∧
    causeCode .dataBusError = 6#32 ∧ causeCode .integerOverflow = 7#32 ∧ causeCode .divideByZero = 8#32 ∧
    causeCode .trap = 9#32 ∧ causeCode .interrupt = 10#32

/-- TRAP (42_control.md R159): always, in both modes, `IAR <- pc + 4; ECR <- 9; EDR <- n; mode <- system;
pc <- VECTOR(Trap, n)`, and nothing else changes. -/
def Obligations.TrapInstructionEntersSystem : Prop :=
  ∀ (off : BitVec 26) (s : State),
    encode (.trap off) = (0x11#6 ++ off : Word) ∧
    Answers (.trap off) s fun t =>
      TrapResult s t .trap (off.zeroExtend 32) ∧ t.iar = s.pc + 4#32 ∧ t.ecr = 9#32 ∧ t.edr = off.zeroExtend 32 ∧
      t.mode = .system ∧ t.pc = s.platform.vector .trap (off.zeroExtend 32)

/-- RFE (42_control.md R160): in `system` mode `pc <- IAR; mode <- user` and nothing else; in `user` mode
PrivilegedInstruction of its word. -/
def Obligations.RfeReturnsOrTraps : Prop :=
  ∀ s : State,
    encode .rfe = 0x40000000#32 ∧
    (s.mode = .system → Answers .rfe s (ReturnResult s)) ∧
    (s.mode = .user → Answers .rfe s (TrapResult s · .privilegedInstruction 0x40000000#32))

/-- After a TRAP an RFE, IAR untouched, continues after the TRAP, in `user` mode, with every register and byte as before
and ECR and EDR left by the trap (42_control.md R159, 60_exceptions.md R216). -/
def Obligations.RfeContinuesAfterTrap : Prop :=
  ∀ (off : BitVec 26) (s : State), ∃ t u, exec (.trap off) s = .next t ∧ exec .rfe t = .next u ∧
    u.pc = s.pc + 4#32 ∧ u.mode = .user ∧ u.iar = s.pc + 4#32 ∧ u.ecr = 9#32 ∧ u.edr = off.zeroExtend 32 ∧
    SameGprs s u ∧ SameFprs s u ∧ u.fpsrC = s.fpsrC ∧ SameMemory s u

/-- MOVI2S (40_data_transfer.md R84), `k` the special register number: a reserved number raises IllegalInstruction in
both modes, then IAR, ECR and EDR raise PrivilegedInstruction in `user` mode, then the register is written; of FPSR, bit
0 alone. -/
def Obligations.Movi2sWritesSpecial : Prop :=
  ∀ (k : SReg) (rs1 : GReg) (s : State),
    let i : Instr := .movi2s k rs1
    let v := s.readR rs1
    encode i = (0x00#6 ++ rs1 ++ 0#5 ++ k ++ 0x30#11 : Word) ∧
    (3 < k.toNat → Answers i s (TrapResult s · .illegalInstruction (encode i))) ∧
    (1 ≤ k.toNat → k.toNat ≤ 3 → s.mode = .user → Answers i s (TrapResult s · .privilegedInstruction (encode i))) ∧
    (k = 0#5 → Answers i s (FlagResult s · (v.getLsbD 0))) ∧
    (s.mode = .system →
      (k = 1#5 → Answers i s (SpecialResult s · v s.ecr s.edr)) ∧
      (k = 2#5 → Answers i s (SpecialResult s · s.iar v s.edr)) ∧
      (k = 3#5 → Answers i s (SpecialResult s · s.iar s.ecr v)))

/-- MOVS2I (40_data_transfer.md R85), `k` the special register number: the same exceptions in the same order, then the
GPR receives the register; of FPSR `0^31 ## FPSR.c`. -/
def Obligations.Movs2iReadsSpecial : Prop :=
  ∀ (rd : GReg) (k : SReg) (s : State),
    let i : Instr := .movs2i rd k
    encode i = (0x00#6 ++ k ++ 0#5 ++ rd ++ 0x31#11 : Word) ∧
    (3 < k.toNat → Answers i s (TrapResult s · .illegalInstruction (encode i))) ∧
    (1 ≤ k.toNat → k.toNat ≤ 3 → s.mode = .user → Answers i s (TrapResult s · .privilegedInstruction (encode i))) ∧
    (k = 0#5 → Answers i s (GprResult s · rd (if s.fpsrC then 1#32 else 0#32))) ∧
    (s.mode = .system →
      (k = 1#5 → Answers i s (GprResult s · rd s.iar)) ∧
      (k = 2#5 → Answers i s (GprResult s · rd s.ecr)) ∧
      (k = 3#5 → Answers i s (GprResult s · rd s.edr)))

/-! ## Loads, stores and moves -/

/-- LB and LBU (40_data_transfer.md R71, R72): the byte at the effective address, sign- or zero-extended; an absent byte
raises DataBusError, also when the destination is R0. -/
def Obligations.LoadByteResult : Prop :=
  ∀ (rd rs1 : GReg) (imm : Half) (s : State),
    let a := s.readR rs1 + imm.signExtend 32
    encode (.lb rd rs1 imm) = (0x20#6 ++ rs1 ++ rd ++ imm : Word) ∧
    encode (.lbu rd rs1 imm) = (0x24#6 ++ rs1 ++ rd ++ imm : Word) ∧
    (s.platform.isRam a.toNat = false → Answers (.lb rd rs1 imm) s (TrapResult s · .dataBusError a) ∧
      Answers (.lbu rd rs1 imm) s (TrapResult s · .dataBusError a)) ∧
    (∀ b : Byte, s.platform.isRam a.toNat = true → s.readByte a = some b →
      Answers (.lb rd rs1 imm) s (GprResult s · rd (b.signExtend 32)) ∧
      Answers (.lbu rd rs1 imm) s (GprResult s · rd (b.zeroExtend 32)))

/-- LH and LHU (40_data_transfer.md R74, R75): misaligned, then absent, then the big-endian halfword, sign- or
zero-extended. -/
def Obligations.LoadHalfwordResult : Prop :=
  ∀ (rd rs1 : GReg) (imm : Half) (s : State),
    let a := s.readR rs1 + imm.signExtend 32
    encode (.lh rd rs1 imm) = (0x21#6 ++ rs1 ++ rd ++ imm : Word) ∧
    encode (.lhu rd rs1 imm) = (0x25#6 ++ rs1 ++ rd ++ imm : Word) ∧
    AccessTraps (.lh rd rs1 imm) s a 2 ∧ AccessTraps (.lhu rd rs1 imm) s a 2 ∧
    (∀ v : Half, Accessible s a 2 → HoldsValue s a 2 v →
      Answers (.lh rd rs1 imm) s (GprResult s · rd (v.signExtend 32)) ∧
      Answers (.lhu rd rs1 imm) s (GprResult s · rd (v.zeroExtend 32)))

/-- LW and LF (40_data_transfer.md R77, R79): misaligned, then absent, then the big-endian word, to a GPR or, its bits
unchanged, to an FPR. -/
def Obligations.LoadWordResult : Prop :=
  ∀ (rd rs1 : BitVec 5) (imm : Half) (s : State),
    let a := s.readR rs1 + imm.signExtend 32
    encode (.lw rd rs1 imm) = (0x23#6 ++ rs1 ++ rd ++ imm : Word) ∧
    encode (.lf rd rs1 imm) = (0x26#6 ++ rs1 ++ rd ++ imm : Word) ∧
    AccessTraps (.lw rd rs1 imm) s a 4 ∧ AccessTraps (.lf rd rs1 imm) s a 4 ∧
    (∀ v : Word, Accessible s a 4 → HoldsValue s a 4 v →
      Answers (.lw rd rs1 imm) s (GprResult s · rd v) ∧ Answers (.lf rd rs1 imm) s (FprResult s · rd v))

/-- LD (40_data_transfer.md R80): an odd register is illegal first, then misaligned, then absent, then one 8-byte access
whose high word goes to the even register. -/
def Obligations.LoadDoubleResult : Prop :=
  ∀ (rd : FReg) (rs1 : GReg) (imm : Half) (s : State),
    let a := s.readR rs1 + imm.signExtend 32
    let i : Instr := .ld rd rs1 imm
    encode i = (0x27#6 ++ rs1 ++ rd ++ imm : Word) ∧
    (rd.getLsbD 0 = true → Answers i s (TrapResult s · .illegalInstruction (encode i))) ∧
    (rd.getLsbD 0 = false → AccessTraps i s a 8 ∧
      ∀ v : DWord, Accessible s a 8 → HoldsValue s a 8 v → Answers i s (PairResult s · rd v))

/-- SB, SH and SW (40_data_transfer.md R73, R76, R78): misaligned, then absent, then the low 1, 2 or 4 bytes of the GPR,
big-endian, and no byte outside them. -/
def Obligations.StoreGprResult : Prop :=
  ∀ (rd rs1 : GReg) (imm : Half) (s : State),
    let a := s.readR rs1 + imm.signExtend 32
    encode (.sb rd rs1 imm) = (0x28#6 ++ rs1 ++ rd ++ imm : Word) ∧
    encode (.sh rd rs1 imm) = (0x29#6 ++ rs1 ++ rd ++ imm : Word) ∧
    encode (.sw rd rs1 imm) = (0x2B#6 ++ rs1 ++ rd ++ imm : Word) ∧
    AccessTraps (.sb rd rs1 imm) s a 1 ∧ AccessTraps (.sh rd rs1 imm) s a 2 ∧ AccessTraps (.sw rd rs1 imm) s a 4 ∧
    (Accessible s a 1 → Answers (.sb rd rs1 imm) s (StoreResult s · a 1 (s.readR rd))) ∧
    (Accessible s a 2 → Answers (.sh rd rs1 imm) s (StoreResult s · a 2 (s.readR rd))) ∧
    (Accessible s a 4 → Answers (.sw rd rs1 imm) s (StoreResult s · a 4 (s.readR rd)))

/-- SF and SD (40_data_transfer.md R81, R82): the FPR's 4 bytes, or the pair's 8 bytes with the even register's first, as
one access; an odd register in SD is illegal first. -/
def Obligations.StoreFprResult : Prop :=
  ∀ (rd : FReg) (rs1 : GReg) (imm : Half) (s : State),
    let a := s.readR rs1 + imm.signExtend 32
    let i : Instr := .sd rd rs1 imm
    encode (.sf rd rs1 imm) = (0x2E#6 ++ rs1 ++ rd ++ imm : Word) ∧
    encode i = (0x2F#6 ++ rs1 ++ rd ++ imm : Word) ∧
    AccessTraps (.sf rd rs1 imm) s a 4 ∧
    (Accessible s a 4 → Answers (.sf rd rs1 imm) s (StoreResult s · a 4 (s.readF rd))) ∧
    (rd.getLsbD 0 = true → Answers i s (TrapResult s · .illegalInstruction (encode i))) ∧
    (rd.getLsbD 0 = false → AccessTraps i s a 8 ∧
      (Accessible s a 8 → Answers i s (StoreResult s · a 8 (s.readF rd ++ s.readF (rd + 1#5) : DWord))))

/-- Loads of other sizes see the bytes that a store wrote (20_memory.md R32): after SW of `0x11223344` at `a`, LB at `a`,
LBU at `a+3`, LH at `a+2` and LHU at `a`; after SD of a pair at `a`, LW at `a` and at `a+4`. -/
def Obligations.MixedWidthLoadsSeeStoredBytes : Prop :=
  (∀ (rd rs1 r b : GReg) (imm d : Half) (s t : State) (a : Word),
    a = s.readR rs1 + imm.signExtend 32 → Accessible s a 4 → s.readR rd = 0x11223344#32 →
    exec (.sw rd rs1 imm) s = .next t →
    (t.readR b + d.signExtend 32 = a →
      Answers (.lb r b d) t (GprResult t · r 0x00000011#32) ∧ Answers (.lhu r b d) t (GprResult t · r 0x00001122#32)) ∧
    (t.readR b + d.signExtend 32 = a + 3#32 → Answers (.lbu r b d) t (GprResult t · r 0x00000044#32)) ∧
    (t.readR b + d.signExtend 32 = a + 2#32 → Answers (.lh r b d) t (GprResult t · r 0x00003344#32))) ∧
  (∀ (f : FReg) (rs1 r b : GReg) (imm d : Half) (s t : State) (a : Word),
    a = s.readR rs1 + imm.signExtend 32 → Accessible s a 8 → f.getLsbD 0 = false → exec (.sd f rs1 imm) s = .next t →
    (t.readR b + d.signExtend 32 = a → Answers (.lw r b d) t (GprResult t · r (s.readF f))) ∧
    (t.readR b + d.signExtend 32 = a + 4#32 → Answers (.lw r b d) t (GprResult t · r (s.readF (f + 1#5)))))

/-- MOVF, MOVFP2I and MOVI2FP (40_data_transfer.md R86, R88, R89): 32 bits copied unchanged. -/
def Obligations.MoveWordResult : Prop :=
  ∀ (rd rs1 : BitVec 5) (s : State),
    encode (.movf rd rs1) = (0x00#6 ++ rs1 ++ 0#5 ++ rd ++ 0x32#11 : Word) ∧
    encode (.movfp2i rd rs1) = (0x00#6 ++ rs1 ++ 0#5 ++ rd ++ 0x34#11 : Word) ∧
    encode (.movi2fp rd rs1) = (0x00#6 ++ rs1 ++ 0#5 ++ rd ++ 0x35#11 : Word) ∧
    Answers (.movf rd rs1) s (FprResult s · rd (s.readF rs1)) ∧
    Answers (.movfp2i rd rs1) s (GprResult s · rd (s.readF rs1)) ∧
    Answers (.movi2fp rd rs1) s (FprResult s · rd (s.readR rs1))

/-- MOVD (40_data_transfer.md R87): both halves of a pair copied, from the old values; an odd register is illegal. -/
def Obligations.MovePairResult : Prop :=
  ∀ (rd rs1 : FReg) (s : State),
    let i : Instr := .movd rd rs1
    encode i = (0x00#6 ++ rs1 ++ 0#5 ++ rd ++ 0x33#11 : Word) ∧
    (rd.getLsbD 0 = true ∨ rs1.getLsbD 0 = true → Answers i s (TrapResult s · .illegalInstruction (encode i))) ∧
    (rd.getLsbD 0 = false → rs1.getLsbD 0 = false →
      Answers i s (PairResult s · rd (s.readF rs1 ++ s.readF (rs1 + 1#5) : DWord)))

/-! ## Integer arithmetic -/

/-- The overflow conditions of 41_arithmetic_logical.md R99, as the model computes them, are true exactly when the exact
signed result is out of `-2^31 .. 2^31 - 1`; of add and subtract the sign-bit form says the same, `-2^31 / -1` is the one
quotient out of range, and a result in range reads as the exact integer. -/
def Obligations.OverflowFormsAgree : Prop :=
  ∀ a b : Word,
    let outside (x : Int) : Prop := x < -2 ^ 31 ∨ 2 ^ 31 - 1 < x
    (addOverflows a b = true ↔ outside (a.toInt + b.toInt)) ∧
    (addOverflows a b = true ↔ a.msb = b.msb ∧ (a + b).msb ≠ a.msb) ∧
    (subOverflows a b = true ↔ outside (a.toInt - b.toInt)) ∧
    (subOverflows a b = true ↔ a.msb ≠ b.msb ∧ (a - b).msb ≠ a.msb) ∧
    (multOverflows a b = true ↔ outside (a.toInt * b.toInt)) ∧
    (b.toInt ≠ 0 → (divOverflows a b = true ↔ outside (a.toInt.tdiv b.toInt))) ∧
    (divOverflows a b = true ↔ a.toInt = -2 ^ 31 ∧ b.toInt = -1) ∧
    (addOverflows a b = false → (a + b).toInt = a.toInt + b.toInt) ∧
    (subOverflows a b = false → (a - b).toInt = a.toInt - b.toInt) ∧
    (multOverflows a b = false → (a * b).toInt = a.toInt * b.toInt) ∧
    (divOverflows a b = false → b.toInt ≠ 0 → (a.sdiv b).toInt = a.toInt.tdiv b.toInt)

/-- ADD and SUB (41_arithmetic_logical.md R100, R104): a signed result out of range raises IntegerOverflow and writes
nothing, also when the destination is R0; else the result is written. -/
def Obligations.AddSubResult : Prop :=
  ∀ (rd rs1 rs2 : GReg) (s : State),
    let a := s.readR rs1
    let b := s.readR rs2
    encode (.add rd rs1 rs2) = (0x00#6 ++ rs1 ++ rs2 ++ rd ++ 0x20#11 : Word) ∧
    encode (.sub rd rs1 rs2) = (0x00#6 ++ rs1 ++ rs2 ++ rd ++ 0x22#11 : Word) ∧
    (a.toInt + b.toInt < -2 ^ 31 ∨ 2 ^ 31 - 1 < a.toInt + b.toInt →
      Answers (.add rd rs1 rs2) s (TrapResult s · .integerOverflow 0#32)) ∧
    (-2 ^ 31 ≤ a.toInt + b.toInt → a.toInt + b.toInt ≤ 2 ^ 31 - 1 →
      Answers (.add rd rs1 rs2) s (GprResult s · rd (a + b))) ∧
    (a.toInt - b.toInt < -2 ^ 31 ∨ 2 ^ 31 - 1 < a.toInt - b.toInt →
      Answers (.sub rd rs1 rs2) s (TrapResult s · .integerOverflow 0#32)) ∧
    (-2 ^ 31 ≤ a.toInt - b.toInt → a.toInt - b.toInt ≤ 2 ^ 31 - 1 →
      Answers (.sub rd rs1 rs2) s (GprResult s · rd (a - b)))

/-- ADDI and SUBI (41_arithmetic_logical.md R101, R105): the same with the immediate sign-extended. -/
def Obligations.AddSubImmediateResult : Prop :=
  ∀ (rd rs1 : GReg) (imm : Half) (s : State),
    let a := s.readR rs1
    encode (.addi rd rs1 imm) = (0x08#6 ++ rs1 ++ rd ++ imm : Word) ∧
    encode (.subi rd rs1 imm) = (0x0A#6 ++ rs1 ++ rd ++ imm : Word) ∧
    (a.toInt + imm.toInt < -2 ^ 31 ∨ 2 ^ 31 - 1 < a.toInt + imm.toInt →
      Answers (.addi rd rs1 imm) s (TrapResult s · .integerOverflow 0#32)) ∧
    (-2 ^ 31 ≤ a.toInt + imm.toInt → a.toInt + imm.toInt ≤ 2 ^ 31 - 1 →
      Answers (.addi rd rs1 imm) s (GprResult s · rd (BitVec.ofInt 32 (a.toInt + imm.toInt)))) ∧
    (a.toInt - imm.toInt < -2 ^ 31 ∨ 2 ^ 31 - 1 < a.toInt - imm.toInt →
      Answers (.subi rd rs1 imm) s (TrapResult s · .integerOverflow 0#32)) ∧
    (-2 ^ 31 ≤ a.toInt - imm.toInt → a.toInt - imm.toInt ≤ 2 ^ 31 - 1 →
      Answers (.subi rd rs1 imm) s (GprResult s · rd (BitVec.ofInt 32 (a.toInt - imm.toInt))))

/-- ADDU, ADDUI, SUBU and SUBUI (41_arithmetic_logical.md R102, R103, R106, R107): modulo 2^32, the immediate
zero-extended, and never a trap. -/
def Obligations.UnsignedAddSubResult : Prop :=
  ∀ (rd rs1 rs2 : GReg) (imm : Half) (s : State),
    let a := (s.readR rs1).toNat
    let b := (s.readR rs2).toNat
    encode (.addu rd rs1 rs2) = (0x00#6 ++ rs1 ++ rs2 ++ rd ++ 0x21#11 : Word) ∧
    encode (.addui rd rs1 imm) = (0x09#6 ++ rs1 ++ rd ++ imm : Word) ∧
    encode (.subu rd rs1 rs2) = (0x00#6 ++ rs1 ++ rs2 ++ rd ++ 0x23#11 : Word) ∧
    encode (.subui rd rs1 imm) = (0x0B#6 ++ rs1 ++ rd ++ imm : Word) ∧
    Answers (.addu rd rs1 rs2) s (GprResult s · rd (BitVec.ofNat 32 (a + b))) ∧
    Answers (.addui rd rs1 imm) s (GprResult s · rd (BitVec.ofNat 32 (a + imm.toNat))) ∧
    Answers (.subu rd rs1 rs2) s (GprResult s · rd (BitVec.ofInt 32 ((a : Int) - b))) ∧
    Answers (.subui rd rs1 imm) s (GprResult s · rd (BitVec.ofInt 32 ((a : Int) - imm.toNat)))

/-- MULT and MULTU (41_arithmetic_logical.md R108, R109) on FPRs: the exact signed product, IntegerOverflow when it does
not fit; the unsigned product modulo 2^32, never a trap. -/
def Obligations.MultiplyResult : Prop :=
  ∀ (rd rs1 rs2 : FReg) (s : State),
    let a := s.readF rs1
    let b := s.readF rs2
    encode (.mult rd rs1 rs2) = (0x01#6 ++ rs1 ++ rs2 ++ rd ++ 0x0E#11 : Word) ∧
    encode (.multu rd rs1 rs2) = (0x01#6 ++ rs1 ++ rs2 ++ rd ++ 0x16#11 : Word) ∧
    (a.toInt * b.toInt < -2 ^ 31 ∨ 2 ^ 31 - 1 < a.toInt * b.toInt →
      Answers (.mult rd rs1 rs2) s (TrapResult s · .integerOverflow 0#32)) ∧
    (-2 ^ 31 ≤ a.toInt * b.toInt → a.toInt * b.toInt ≤ 2 ^ 31 - 1 →
      ∃ p : Word, p.toInt = a.toInt * b.toInt ∧ Answers (.mult rd rs1 rs2) s (FprResult s · rd p)) ∧
    (∃ p : Word, p.toNat = a.toNat * b.toNat % 2 ^ 32 ∧ Answers (.multu rd rs1 rs2) s (FprResult s · rd p))

/-- DIV and DIVU (41_arithmetic_logical.md R110, R111) on FPRs: a zero divisor raises DivideByZero, then `-2^31 / -1`
IntegerOverflow, else the quotient rounded toward zero, or down. -/
def Obligations.DivideResult : Prop :=
  ∀ (rd rs1 rs2 : FReg) (s : State),
    let n := s.readF rs1
    let d := s.readF rs2
    encode (.div rd rs1 rs2) = (0x01#6 ++ rs1 ++ rs2 ++ rd ++ 0x0F#11 : Word) ∧
    encode (.divu rd rs1 rs2) = (0x01#6 ++ rs1 ++ rs2 ++ rd ++ 0x17#11 : Word) ∧
    (d = 0#32 → Answers (.div rd rs1 rs2) s (TrapResult s · .divideByZero 0#32) ∧
      Answers (.divu rd rs1 rs2) s (TrapResult s · .divideByZero 0#32)) ∧
    (n.toInt = -2 ^ 31 → d.toInt = -1 → Answers (.div rd rs1 rs2) s (TrapResult s · .integerOverflow 0#32)) ∧
    (d ≠ 0#32 → ¬ (n.toInt = -2 ^ 31 ∧ d.toInt = -1) →
      ∃ q : Word, q.toInt = n.toInt.tdiv d.toInt ∧ Answers (.div rd rs1 rs2) s (FprResult s · rd q)) ∧
    (d ≠ 0#32 → ∃ q : Word, q.toNat = n.toNat / d.toNat ∧ Answers (.divu rd rs1 rs2) s (FprResult s · rd q))

/-! ## Logical operations, shifts, set conditional -/

/-- AND, OR and XOR (41_arithmetic_logical.md R112, R114, R116): bitwise. -/
def Obligations.LogicalResult : Prop :=
  ∀ (rd rs1 rs2 : GReg) (s : State),
    let a := s.readR rs1
    let b := s.readR rs2
    encode (.and rd rs1 rs2) = (0x00#6 ++ rs1 ++ rs2 ++ rd ++ 0x24#11 : Word) ∧
    encode (.or rd rs1 rs2) = (0x00#6 ++ rs1 ++ rs2 ++ rd ++ 0x25#11 : Word) ∧
    encode (.xor rd rs1 rs2) = (0x00#6 ++ rs1 ++ rs2 ++ rd ++ 0x26#11 : Word) ∧
    Answers (.and rd rs1 rs2) s (GprResult s · rd (a &&& b)) ∧
    Answers (.or rd rs1 rs2) s (GprResult s · rd (a ||| b)) ∧
    Answers (.xor rd rs1 rs2) s (GprResult s · rd (a ^^^ b))

/-- ANDI, ORI, XORI and LHI (41_arithmetic_logical.md R113, R115, R117, R118): the immediate zero-extended, so that the
upper half is cleared by ANDI and kept by ORI and XORI; LHI puts it in the upper half over zeros. -/
def Obligations.LogicalImmediateResult : Prop :=
  ∀ (rd rs1 : GReg) (imm : Half) (s : State),
    let hi : Half := (s.readR rs1).extractLsb' 16 16
    let lo : Half := (s.readR rs1).extractLsb' 0 16
    encode (.andi rd rs1 imm) = (0x0C#6 ++ rs1 ++ rd ++ imm : Word) ∧
    encode (.ori rd rs1 imm) = (0x0D#6 ++ rs1 ++ rd ++ imm : Word) ∧
    encode (.xori rd rs1 imm) = (0x0E#6 ++ rs1 ++ rd ++ imm : Word) ∧
    encode (.lhi rd imm) = (0x0F#6 ++ 0#5 ++ rd ++ imm : Word) ∧
    Answers (.andi rd rs1 imm) s (GprResult s · rd (0#16 ++ (lo &&& imm) : Word)) ∧
    Answers (.ori rd rs1 imm) s (GprResult s · rd (hi ++ (lo ||| imm) : Word)) ∧
    Answers (.xori rd rs1 imm) s (GprResult s · rd (hi ++ (lo ^^^ imm) : Word)) ∧
    Answers (.lhi rd imm) s (GprResult s · rd (imm ++ 0#16 : Word))

/-- SLL, SRL and SRA (41_arithmetic_logical.md R119 to R121): the amount is the second operand modulo 32; left is times
`2^n` modulo 2^32, right logical the unsigned quotient, right arithmetic the signed quotient rounded down. -/
def Obligations.ShiftResult : Prop :=
  ∀ (rd rs1 rs2 : GReg) (s : State),
    let a := s.readR rs1
    let n := (s.readR rs2).toNat % 32
    encode (.sll rd rs1 rs2) = (0x00#6 ++ rs1 ++ rs2 ++ rd ++ 0x04#11 : Word) ∧
    encode (.srl rd rs1 rs2) = (0x00#6 ++ rs1 ++ rs2 ++ rd ++ 0x06#11 : Word) ∧
    encode (.sra rd rs1 rs2) = (0x00#6 ++ rs1 ++ rs2 ++ rd ++ 0x07#11 : Word) ∧
    Answers (.sll rd rs1 rs2) s (GprResult s · rd (BitVec.ofNat 32 (a.toNat * 2 ^ n))) ∧
    Answers (.srl rd rs1 rs2) s (GprResult s · rd (BitVec.ofNat 32 (a.toNat / 2 ^ n))) ∧
    Answers (.sra rd rs1 rs2) s (GprResult s · rd (BitVec.ofInt 32 (a.toInt / 2 ^ n)))

/-- SLLI, SRLI and SRAI (41_arithmetic_logical.md R122 to R124): the amount is the immediate modulo 32, its other bits
ignored. -/
def Obligations.ShiftImmediateResult : Prop :=
  ∀ (rd rs1 : GReg) (imm : Half) (s : State),
    let a := s.readR rs1
    let n := imm.toNat % 32
    encode (.slli rd rs1 imm) = (0x14#6 ++ rs1 ++ rd ++ imm : Word) ∧
    encode (.srli rd rs1 imm) = (0x16#6 ++ rs1 ++ rd ++ imm : Word) ∧
    encode (.srai rd rs1 imm) = (0x17#6 ++ rs1 ++ rd ++ imm : Word) ∧
    Answers (.slli rd rs1 imm) s (GprResult s · rd (BitVec.ofNat 32 (a.toNat * 2 ^ n))) ∧
    Answers (.srli rd rs1 imm) s (GprResult s · rd (BitVec.ofNat 32 (a.toNat / 2 ^ n))) ∧
    Answers (.srai rd rs1 imm) s (GprResult s · rd (BitVec.ofInt 32 (a.toInt / 2 ^ n)))

/-- SLT, SGT, SLE, SGE, SEQ and SNE (41_arithmetic_logical.md R126 to R131): signed comparison, 1 or 0 to the GPR. -/
def Obligations.SetConditionalResult : Prop :=
  ∀ (rd rs1 rs2 : GReg) (s : State),
    let a := s.readR rs1
    let b := s.readR rs2
    encode (.slt rd rs1 rs2) = (0x00#6 ++ rs1 ++ rs2 ++ rd ++ 0x2A#11 : Word) ∧
    encode (.sgt rd rs1 rs2) = (0x00#6 ++ rs1 ++ rs2 ++ rd ++ 0x2B#11 : Word) ∧
    encode (.sle rd rs1 rs2) = (0x00#6 ++ rs1 ++ rs2 ++ rd ++ 0x2C#11 : Word) ∧
    encode (.sge rd rs1 rs2) = (0x00#6 ++ rs1 ++ rs2 ++ rd ++ 0x2D#11 : Word) ∧
    encode (.seq rd rs1 rs2) = (0x00#6 ++ rs1 ++ rs2 ++ rd ++ 0x28#11 : Word) ∧
    encode (.sne rd rs1 rs2) = (0x00#6 ++ rs1 ++ rs2 ++ rd ++ 0x29#11 : Word) ∧
    Answers (.slt rd rs1 rs2) s (GprResult s · rd (if a.toInt < b.toInt then 1#32 else 0#32)) ∧
    Answers (.sgt rd rs1 rs2) s (GprResult s · rd (if b.toInt < a.toInt then 1#32 else 0#32)) ∧
    Answers (.sle rd rs1 rs2) s (GprResult s · rd (if a.toInt ≤ b.toInt then 1#32 else 0#32)) ∧
    Answers (.sge rd rs1 rs2) s (GprResult s · rd (if b.toInt ≤ a.toInt then 1#32 else 0#32)) ∧
    Answers (.seq rd rs1 rs2) s (GprResult s · rd (if a = b then 1#32 else 0#32)) ∧
    Answers (.sne rd rs1 rs2) s (GprResult s · rd (if a = b then 0#32 else 1#32))

/-- SLTI, SGTI, SLEI, SGEI, SEQI and SNEI (41_arithmetic_logical.md R132 to R137): the same with the immediate
sign-extended. -/
def Obligations.SetConditionalImmediateResult : Prop :=
  ∀ (rd rs1 : GReg) (imm : Half) (s : State),
    let a := s.readR rs1
    encode (.slti rd rs1 imm) = (0x1A#6 ++ rs1 ++ rd ++ imm : Word) ∧
    encode (.sgti rd rs1 imm) = (0x1B#6 ++ rs1 ++ rd ++ imm : Word) ∧
    encode (.slei rd rs1 imm) = (0x1C#6 ++ rs1 ++ rd ++ imm : Word) ∧
    encode (.sgei rd rs1 imm) = (0x1D#6 ++ rs1 ++ rd ++ imm : Word) ∧
    encode (.seqi rd rs1 imm) = (0x18#6 ++ rs1 ++ rd ++ imm : Word) ∧
    encode (.snei rd rs1 imm) = (0x19#6 ++ rs1 ++ rd ++ imm : Word) ∧
    Answers (.slti rd rs1 imm) s (GprResult s · rd (if a.toInt < imm.toInt then 1#32 else 0#32)) ∧
    Answers (.sgti rd rs1 imm) s (GprResult s · rd (if imm.toInt < a.toInt then 1#32 else 0#32)) ∧
    Answers (.slei rd rs1 imm) s (GprResult s · rd (if a.toInt ≤ imm.toInt then 1#32 else 0#32)) ∧
    Answers (.sgei rd rs1 imm) s (GprResult s · rd (if imm.toInt ≤ a.toInt then 1#32 else 0#32)) ∧
    Answers (.seqi rd rs1 imm) s (GprResult s · rd (if a.toInt = imm.toInt then 1#32 else 0#32)) ∧
    Answers (.snei rd rs1 imm) s (GprResult s · rd (if a.toInt = imm.toInt then 0#32 else 1#32))

/-- The pseudo-instructions of 30_encoding.md R66: NOP is the word `0x00000020` and changes `pc` alone; LHI then ORI
leaves any 32-bit constant in a register; ADD and ADDU with R0 move a register. -/
def Obligations.PseudoInstructionsWork : Prop :=
  (∀ s : State, encode (.add 0 0 0) = 0x00000020#32 ∧ Answers (.add 0 0 0) s (JumpResult s · (s.pc + 4#32))) ∧
  (∀ (rd : GReg) (k : Word) (s : State), rd ≠ 0#5 → ∃ t u,
    exec (.lhi rd (k.extractLsb' 16 16)) s = .next t ∧ exec (.ori rd rd (k.extractLsb' 0 16)) t = .next u ∧
    u.readR rd = k ∧ ∀ i, i ≠ rd → u.readR i = s.readR i) ∧
  (∀ (rd rs : GReg) (s : State), Answers (.add rd rs 0) s (GprResult s · rd (s.readR rs)) ∧
    Answers (.addu rd rs 0) s (GprResult s · rd (s.readR rs)))

/-! ## Control -/

/-- BEQZ and BNEZ (42_control.md R151, R152): all 32 bits are tested; taken, `pc + 4` plus the signed byte offset; not
taken, `pc + 4`; nothing else changes. -/
def Obligations.BranchOnGprResult : Prop :=
  ∀ (rs1 : GReg) (imm : Half) (s : State),
    let target := s.pc + 4#32 + imm.signExtend 32
    encode (.beqz rs1 imm) = (0x04#6 ++ rs1 ++ 0#5 ++ imm : Word) ∧
    encode (.bnez rs1 imm) = (0x05#6 ++ rs1 ++ 0#5 ++ imm : Word) ∧
    Answers (.beqz rs1 imm) s (JumpResult s · (if s.readR rs1 = 0#32 then target else s.pc + 4#32)) ∧
    Answers (.bnez rs1 imm) s (JumpResult s · (if s.readR rs1 = 0#32 then s.pc + 4#32 else target))

/-- BFPT and BFPF (42_control.md R153, R154): the comparison bit is tested and kept. -/
def Obligations.BranchOnFlagResult : Prop :=
  ∀ (imm : Half) (s : State),
    let target := s.pc + 4#32 + imm.signExtend 32
    encode (.bfpt imm) = (0x06#6 ++ 0#5 ++ 0#5 ++ imm : Word) ∧
    encode (.bfpf imm) = (0x07#6 ++ 0#5 ++ 0#5 ++ imm : Word) ∧
    Answers (.bfpt imm) s (JumpResult s · (if s.fpsrC = true then target else s.pc + 4#32)) ∧
    Answers (.bfpf imm) s (JumpResult s · (if s.fpsrC = true then s.pc + 4#32 else target))

/-- J, JR, JAL and JALR (42_control.md R155 to R158): to `pc + 4` plus the signed 26-bit byte offset, or to the register,
read before the link; JAL and JALR leave `pc + 4` in R31. -/
def Obligations.JumpAndLinkResult : Prop :=
  ∀ (off : BitVec 26) (rs1 : GReg) (s : State),
    let target := s.pc + 4#32 + off.signExtend 32
    encode (.j off) = (0x02#6 ++ off : Word) ∧
    encode (.jal off) = (0x03#6 ++ off : Word) ∧
    encode (.jr rs1) = (0x12#6 ++ rs1 ++ 0#5 ++ 0#16 : Word) ∧
    encode (.jalr rs1) = (0x13#6 ++ rs1 ++ 0#5 ++ 0#16 : Word) ∧
    Answers (.j off) s (JumpResult s · target) ∧
    Answers (.jr rs1) s (JumpResult s · (s.readR rs1)) ∧
    Answers (.jal off) s (LinkResult s · target) ∧
    Answers (.jalr rs1) s (LinkResult s · (s.readR rs1))

/-! ## Floating point -/

/-- ADDF, SUBF, MULTF and DIVF (43_floating_point.md R175, R177, R179, R181): the exact result of the operation on the
two numbers, rounded once; where it is no number, some quiet NaN. -/
def Obligations.SinglePrecisionResult : Prop :=
  ∀ (rd rs1 rs2 : FReg) (s : State),
    let x := f32 (s.readF rs1)
    let y := f32 (s.readF rs2)
    encode (.addf rd rs1 rs2) = (0x01#6 ++ rs1 ++ rs2 ++ rd ++ 0x00#11 : Word) ∧
    encode (.subf rd rs1 rs2) = (0x01#6 ++ rs1 ++ rs2 ++ rd ++ 0x01#11 : Word) ∧
    encode (.multf rd rs1 rs2) = (0x01#6 ++ rs1 ++ rs2 ++ rd ++ 0x02#11 : Word) ∧
    encode (.divf rd rs1 rs2) = (0x01#6 ++ rs1 ++ rs2 ++ rd ++ 0x03#11 : Word) ∧
    ∀ (i : Instr) (z : FloatValue),
      (i = .addf rd rs1 rs2 ∧ z = x.add y) ∨ (i = .subf rd rs1 rs2 ∧ z = x.sub y) ∨
      (i = .multf rd rs1 rs2 ∧ z = x.mul y) ∨ (i = .divf rd rs1 rs2 ∧ z = x.div y) →
      (∀ v, rnd32 z = some v → Answers i s (FprResult s · rd v)) ∧
      (z = .nan → Answers i s fun t => ∃ v, IsQuietNaN32 v ∧ FprWritten s t rd v)

/-- ADDD, SUBD, MULTD and DIVD (43_floating_point.md R174, R176, R178, R180): the same on pairs; an odd register is
illegal. -/
def Obligations.DoublePrecisionResult : Prop :=
  ∀ (rd rs1 rs2 : FReg) (s : State),
    let x := f64 (s.readF rs1 ++ s.readF (rs1 + 1#5) : DWord)
    let y := f64 (s.readF rs2 ++ s.readF (rs2 + 1#5) : DWord)
    encode (.addd rd rs1 rs2) = (0x01#6 ++ rs1 ++ rs2 ++ rd ++ 0x04#11 : Word) ∧
    encode (.subd rd rs1 rs2) = (0x01#6 ++ rs1 ++ rs2 ++ rd ++ 0x05#11 : Word) ∧
    encode (.multd rd rs1 rs2) = (0x01#6 ++ rs1 ++ rs2 ++ rd ++ 0x06#11 : Word) ∧
    encode (.divd rd rs1 rs2) = (0x01#6 ++ rs1 ++ rs2 ++ rd ++ 0x07#11 : Word) ∧
    ∀ (i : Instr) (z : FloatValue),
      (i = .addd rd rs1 rs2 ∧ z = x.add y) ∨ (i = .subd rd rs1 rs2 ∧ z = x.sub y) ∨
      (i = .multd rd rs1 rs2 ∧ z = x.mul y) ∨ (i = .divd rd rs1 rs2 ∧ z = x.div y) →
      (rd.getLsbD 0 = true ∨ rs1.getLsbD 0 = true ∨ rs2.getLsbD 0 = true →
        Answers i s (TrapResult s · .illegalInstruction (encode i))) ∧
      (rd.getLsbD 0 = false → rs1.getLsbD 0 = false → rs2.getLsbD 0 = false →
        (∀ v, rnd64 z = some v → Answers i s (PairResult s · rd v)) ∧
        (z = .nan → Answers i s fun t => ∃ v, IsQuietNaN64 v ∧ PairWritten s t rd v))

/-- The exact operations on finite values are those of the rational numbers wherever the result is finite, their results
keep a positive denominator, and the sign of a zero follows 43_floating_point.md R171: a zero sum of opposite signs is +0,
a zero product or quotient has the exclusive-or of the signs. On an infinite operand they are those of IEEE 754 (R172 and
43_floating_point.md section 2): an infinity absorbs a finite number and one of its own sign, in a product and a quotient
the signs combine by exclusive-or, and a finite number over an infinity is a zero of the combined sign. -/
def Obligations.ExactOperationsAreRational : Prop :=
  (∀ (s t : Bool) (n d m e : Nat), 0 < d → 0 < e →
    let x := FloatValue.finite s n d
    let y := FloatValue.finite t m e
    (∃ u k f, x.add y = .finite u k f ∧ 0 < f ∧ (x.add y).toRat = x.toRat + y.toRat ∧
      (x.toRat + y.toRat = 0 → s ≠ t → u = false) ∧ (s = t → u = s)) ∧
    (∃ u k f, x.sub y = .finite u k f ∧ 0 < f ∧ (x.sub y).toRat = x.toRat - y.toRat ∧
      (x.toRat - y.toRat = 0 → s = t → u = false) ∧ (s ≠ t → u = s)) ∧
    (∃ k f, x.mul y = .finite (s ^^ t) k f ∧ 0 < f ∧ (x.mul y).toRat = x.toRat * y.toRat) ∧
    (m ≠ 0 → ∃ k f, x.div y = .finite (s ^^ t) k f ∧ 0 < f ∧ (x.div y).toRat = x.toRat / y.toRat) ∧
    (m = 0 → n ≠ 0 → x.div y = .infinity (s ^^ t))) ∧
  (∀ (s t : Bool) (n d : Nat),
    let x := FloatValue.infinity s
    let y := FloatValue.finite t n d
    x.add y = x ∧ y.add x = x ∧ x.sub y = x ∧ y.sub x = .infinity (!s) ∧
    (n ≠ 0 → x.mul y = .infinity (s ^^ t) ∧ y.mul x = .infinity (s ^^ t)) ∧
    x.div y = .infinity (s ^^ t) ∧ ∃ f, y.div x = .finite (s ^^ t) 0 f ∧ 0 < f) ∧
  ∀ s t : Bool,
    let x := FloatValue.infinity s
    x.add x = x ∧ x.sub (.infinity (!s)) = x ∧ x.mul (.infinity t) = .infinity (s ^^ t)

/-- An operation gives a NaN exactly on a NaN operand and on `inf - inf`, `0 * inf`, `0 / 0` and `inf / inf`
(43_floating_point.md R173), and rounding gives no pattern exactly for a NaN. -/
def Obligations.InvalidOperationsGiveNaN : Prop :=
  (∀ x y : FloatValue,
    (x.add y = .nan ↔ x = .nan ∨ y = .nan ∨ ∃ s, x = .infinity s ∧ y = .infinity (!s)) ∧
    (x.sub y = .nan ↔ x = .nan ∨ y = .nan ∨ ∃ s, x = .infinity s ∧ y = .infinity s) ∧
    (x.mul y = .nan ↔ x = .nan ∨ y = .nan ∨ (∃ s t d, x = .infinity s ∧ y = .finite t 0 d) ∨
      ∃ s t d, x = .finite s 0 d ∧ y = .infinity t) ∧
    (x.div y = .nan ↔ x = .nan ∨ y = .nan ∨ (∃ s t, x = .infinity s ∧ y = .infinity t) ∨
      ∃ s t d e, x = .finite s 0 d ∧ y = .finite t 0 e)) ∧
  ∀ x : FloatValue, (rnd32 x = none ↔ x = .nan) ∧ (rnd64 x = none ↔ x = .nan)

/-- Rounding is to the nearest, ties to even, in both formats (43_floating_point.md R171): `rnd32` and `rnd64` of
`num / den` with a sign give a pattern with that sign whose magnitude bits stand for a number no farther from `num / den`
than that of any others, and are even when others are as near. The bits of infinity count as the number after the largest
finite one, so that infinity is given exactly from halfway to it on. An infinity gives the pattern of infinity of its sign.
That a number which rounds to zero keeps its sign is log 19. -/
def Obligations.RoundingIsNearestEven : Prop :=
  ∀ s : Bool,
    (∀ num den : Nat, 0 < den →
      (∃ v, rnd32 (.finite s num den) = some v ∧ v.msb = s ∧
        FloatFormat.sp.NearestEven num den (v.extractLsb' 0 31).toNat) ∧
      (∃ v, rnd64 (.finite s num den) = some v ∧ v.msb = s ∧
        FloatFormat.dp.NearestEven num den (v.extractLsb' 0 63).toNat)) ∧
    rnd32 (.infinity s) = some (if s then 0xFF800000#32 else 0x7F800000#32) ∧
    rnd64 (.infinity s) = some (if s then 0xFFF0000000000000#64 else 0x7FF0000000000000#64)

/-- What a pattern denotes is what the table of 43_floating_point.md R170 says, with the sign bit, the exponent `e` and the
fraction `f`: an infinity or a NaN where `e` is all ones, else a zero, a subnormal or a normal number; that number is
counted in smallest subnormals by its magnitude bits. And a pattern that is no NaN is the rounding of what it denotes:
`f32` and `f64` lose nothing. -/
def Obligations.PatternsRoundToThemselves : Prop :=
  (∀ v : Word,
    let e := (v.extractLsb' 23 8).toNat
    let f := (v.extractLsb' 0 23).toNat
    (e = 255 → f32 v = if f = 0 then .infinity v.msb else .nan) ∧
    (e ≠ 255 → f32 v = .finite v.msb (FloatFormat.sp.units (v.extractLsb' 0 31).toNat) (2 ^ 149) ∧
      (f32 v).toRat = (if v.msb then -1 else 1) *
        (if e = 0 then (f : ℚ) / 2 ^ 149 else (1 + (f : ℚ) / 2 ^ 23) * 2 ^ ((e : ℤ) - 127))) ∧
    (f32 v ≠ .nan → rnd32 (f32 v) = some v)) ∧
  ∀ v : DWord,
    let e := (v.extractLsb' 52 11).toNat
    let f := (v.extractLsb' 0 52).toNat
    (e = 2047 → f64 v = if f = 0 then .infinity v.msb else .nan) ∧
    (e ≠ 2047 → f64 v = .finite v.msb (FloatFormat.dp.units (v.extractLsb' 0 63).toNat) (2 ^ 1074) ∧
      (f64 v).toRat = (if v.msb then -1 else 1) *
        (if e = 0 then (f : ℚ) / 2 ^ 1074 else (1 + (f : ℚ) / 2 ^ 52) * 2 ^ ((e : ℤ) - 1023))) ∧
    (f64 v ≠ .nan → rnd64 (f64 v) = some v)

/-- CVTF2D and CVTI2D (43_floating_point.md R182, R187) are exact: the pair then denotes the very number, infinity or
integer; a NaN gives some quiet NaN; an odd destination is illegal. That the sign of a zero and of an infinity is
kept and that the integer 0 gives +0 is the model's reading (log 19). -/
def Obligations.ConvertToDoubleIsExact : Prop :=
  ∀ (rd rs1 : FReg) (s : State),
    encode (.cvtf2d rd rs1) = (0x01#6 ++ rs1 ++ 0#5 ++ rd ++ 0x08#11 : Word) ∧
    encode (.cvti2d rd rs1) = (0x01#6 ++ rs1 ++ 0#5 ++ rd ++ 0x0D#11 : Word) ∧
    (rd.getLsbD 0 = true → Answers (.cvtf2d rd rs1) s (TrapResult s · .illegalInstruction (encode (.cvtf2d rd rs1))) ∧
      Answers (.cvti2d rd rs1) s (TrapResult s · .illegalInstruction (encode (.cvti2d rd rs1)))) ∧
    (rd.getLsbD 0 = false →
      (∀ u n d, f32 (s.readF rs1) = .finite u n d → ∃ v m e, f64 v = .finite u m e ∧ n * e = m * d ∧
        Answers (.cvtf2d rd rs1) s (PairResult s · rd v)) ∧
      (∀ u, f32 (s.readF rs1) = .infinity u → ∃ v, f64 v = .infinity u ∧
        Answers (.cvtf2d rd rs1) s (PairResult s · rd v)) ∧
      (f32 (s.readF rs1) = .nan →
        Answers (.cvtf2d rd rs1) s fun t => ∃ v, IsQuietNaN64 v ∧ PairWritten s t rd v) ∧
      (∃ v u m e, f64 v = .finite u m e ∧ (f64 v).toRat = ((s.readF rs1).toInt : ℚ) ∧
        u = decide ((s.readF rs1).toInt < 0) ∧ Answers (.cvti2d rd rs1) s (PairResult s · rd v)))

/-- CVTD2F and CVTI2F (43_floating_point.md R184, R186): the number rounded to single precision; of CVTD2F, a NaN gives
some quiet NaN and an odd source is illegal. -/
def Obligations.ConvertToSingleRounds : Prop :=
  ∀ (rd rs1 : FReg) (s : State),
    let i : Instr := .cvtd2f rd rs1
    let x := f64 (s.readF rs1 ++ s.readF (rs1 + 1#5) : DWord)
    encode i = (0x01#6 ++ rs1 ++ 0#5 ++ rd ++ 0x0A#11 : Word) ∧
    encode (.cvti2f rd rs1) = (0x01#6 ++ rs1 ++ 0#5 ++ rd ++ 0x0C#11 : Word) ∧
    (rs1.getLsbD 0 = true → Answers i s (TrapResult s · .illegalInstruction (encode i))) ∧
    (rs1.getLsbD 0 = false →
      (∀ v, rnd32 x = some v → Answers i s (FprResult s · rd v)) ∧
      (x = .nan → Answers i s fun t => ∃ v, IsQuietNaN32 v ∧ FprWritten s t rd v)) ∧
    (∃ v, rnd32 (.finite (s.readF rs1).msb (s.readF rs1).toInt.natAbs 1) = some v ∧
      Answers (.cvti2f rd rs1) s (FprResult s · rd v))

/-- CVTF2I and CVTD2I (43_floating_point.md R183, R185): the number rounded toward zero where that is a signed word; some
32-bit value for a NaN, an infinity or a number out of range, and no exception; of CVTD2I, an odd source is illegal. -/
def Obligations.ConvertToIntegerTruncates : Prop :=
  ∀ (rd rs1 : FReg) (s : State) (i : Instr) (x : FloatValue),
    encode (.cvtf2i rd rs1) = (0x01#6 ++ rs1 ++ 0#5 ++ rd ++ 0x09#11 : Word) ∧
    encode (.cvtd2i rd rs1) = (0x01#6 ++ rs1 ++ 0#5 ++ rd ++ 0x0B#11 : Word) ∧
    (rs1.getLsbD 0 = true →
      Answers (.cvtd2i rd rs1) s (TrapResult s · .illegalInstruction (encode (.cvtd2i rd rs1)))) ∧
    ((i = .cvtf2i rd rs1 ∧ x = f32 (s.readF rs1)) ∨
      (rs1.getLsbD 0 = false ∧ i = .cvtd2i rd rs1 ∧ x = f64 (s.readF rs1 ++ s.readF (rs1 + 1#5) : DWord)) →
      (∀ (k : Int) (u : Bool) (n d : Nat), x = .finite u n d → k = (if u then -1 else 1) * ((n / d : Nat) : Int) →
        (-2 ^ 31 ≤ k → k ≤ 2 ^ 31 - 1 → ∃ v : Word, v.toInt = k ∧ Answers i s (FprResult s · rd v)) ∧
        (k < -2 ^ 31 ∨ 2 ^ 31 - 1 < k → Answers i s fun t => ∃ v, FprWritten s t rd v)) ∧
      (x = .nan ∨ (∃ u, x = .infinity u) → Answers i s fun t => ∃ v, FprWritten s t rd v))

/-- LTF, GTF, LEF, GEF, EQF and NEF (43_floating_point.md R195 to R200): the comparison bit becomes the condition on how
the two numbers compare, and no other state changes. -/
def Obligations.CompareSingleResult : Prop :=
  ∀ (rs1 rs2 : FReg) (s : State),
    let o := (f32 (s.readF rs1)).compare (f32 (s.readF rs2))
    encode (.ltf rs1 rs2) = (0x01#6 ++ rs1 ++ rs2 ++ 0#5 ++ 0x12#11 : Word) ∧
    encode (.gtf rs1 rs2) = (0x01#6 ++ rs1 ++ rs2 ++ 0#5 ++ 0x13#11 : Word) ∧
    encode (.lef rs1 rs2) = (0x01#6 ++ rs1 ++ rs2 ++ 0#5 ++ 0x14#11 : Word) ∧
    encode (.gef rs1 rs2) = (0x01#6 ++ rs1 ++ rs2 ++ 0#5 ++ 0x15#11 : Word) ∧
    encode (.eqf rs1 rs2) = (0x01#6 ++ rs1 ++ rs2 ++ 0#5 ++ 0x10#11 : Word) ∧
    encode (.nef rs1 rs2) = (0x01#6 ++ rs1 ++ rs2 ++ 0#5 ++ 0x11#11 : Word) ∧
    Answers (.ltf rs1 rs2) s (FlagResult s · (decide (o = some .lt))) ∧
    Answers (.gtf rs1 rs2) s (FlagResult s · (decide (o = some .gt))) ∧
    Answers (.lef rs1 rs2) s (FlagResult s · (decide (o = some .lt ∨ o = some .eq))) ∧
    Answers (.gef rs1 rs2) s (FlagResult s · (decide (o = some .gt ∨ o = some .eq))) ∧
    Answers (.eqf rs1 rs2) s (FlagResult s · (decide (o = some .eq))) ∧
    Answers (.nef rs1 rs2) s (FlagResult s · (decide (o ≠ some .eq)))

/-- LTD, GTD, LED, GED, EQD and NED (43_floating_point.md R189 to R194): the same on pairs; an odd register is illegal. -/
def Obligations.CompareDoubleResult : Prop :=
  ∀ (rs1 rs2 : FReg) (s : State),
    let o := (f64 (s.readF rs1 ++ s.readF (rs1 + 1#5) : DWord)).compare (f64 (s.readF rs2 ++ s.readF (rs2 + 1#5) : DWord))
    encode (.ltd rs1 rs2) = (0x01#6 ++ rs1 ++ rs2 ++ 0#5 ++ 0x1A#11 : Word) ∧
    encode (.gtd rs1 rs2) = (0x01#6 ++ rs1 ++ rs2 ++ 0#5 ++ 0x1B#11 : Word) ∧
    encode (.led rs1 rs2) = (0x01#6 ++ rs1 ++ rs2 ++ 0#5 ++ 0x1C#11 : Word) ∧
    encode (.ged rs1 rs2) = (0x01#6 ++ rs1 ++ rs2 ++ 0#5 ++ 0x1D#11 : Word) ∧
    encode (.eqd rs1 rs2) = (0x01#6 ++ rs1 ++ rs2 ++ 0#5 ++ 0x18#11 : Word) ∧
    encode (.ned rs1 rs2) = (0x01#6 ++ rs1 ++ rs2 ++ 0#5 ++ 0x19#11 : Word) ∧
    (rs1.getLsbD 0 = true ∨ rs2.getLsbD 0 = true → ∀ i : Instr, i = .ltd rs1 rs2 ∨ i = .gtd rs1 rs2 ∨
      i = .led rs1 rs2 ∨ i = .ged rs1 rs2 ∨ i = .eqd rs1 rs2 ∨ i = .ned rs1 rs2 →
      Answers i s (TrapResult s · .illegalInstruction (encode i))) ∧
    (rs1.getLsbD 0 = false → rs2.getLsbD 0 = false →
      Answers (.ltd rs1 rs2) s (FlagResult s · (decide (o = some .lt))) ∧
      Answers (.gtd rs1 rs2) s (FlagResult s · (decide (o = some .gt))) ∧
      Answers (.led rs1 rs2) s (FlagResult s · (decide (o = some .lt ∨ o = some .eq))) ∧
      Answers (.ged rs1 rs2) s (FlagResult s · (decide (o = some .gt ∨ o = some .eq))) ∧
      Answers (.eqd rs1 rs2) s (FlagResult s · (decide (o = some .eq))) ∧
      Answers (.ned rs1 rs2) s (FlagResult s · (decide (o ≠ some .eq))))

/-- How two numbers compare (43_floating_point.md R188): finite ones as rationals, so that -0 equals +0; minus infinity
below and plus infinity above every finite number; infinities of one sign equal; unordered exactly where one is a NaN. -/
def Obligations.ComparisonIsIeee : Prop :=
  (∀ (s t : Bool) (n d m e : Nat), 0 < d → 0 < e →
    let x := FloatValue.finite s n d
    let y := FloatValue.finite t m e
    (x.compare y = some .lt ↔ x.toRat < y.toRat) ∧ (x.compare y = some .eq ↔ x.toRat = y.toRat) ∧
    (x.compare y = some .gt ↔ y.toRat < x.toRat) ∧
    (FloatValue.infinity true).compare x = some .lt ∧ x.compare (.infinity false) = some .lt ∧
    (FloatValue.infinity false).compare x = some .gt ∧ x.compare (.infinity true) = some .gt) ∧
  (∀ s : Bool, (FloatValue.infinity s).compare (.infinity s) = some .eq) ∧
  (FloatValue.infinity true).compare (.infinity false) = some .lt ∧
  (FloatValue.infinity false).compare (.infinity true) = some .gt ∧
  ∀ x y : FloatValue, x.compare y = none ↔ x = .nan ∨ y = .nan

/-! ## The whole machine -/

/-- Every step keeps the invariant: memory stays in its canonical form, the record of stored bytes strictly rising, and
every recorded byte is RAM and holds a value. -/
def Obligations.StepKeepsInvariant : Prop :=
  ∀ s t : State, s.Inv → step s = .next t → t.Inv

/-- The reset state meets the invariant. -/
def Obligations.ResetMeetsInvariant : Prop := State.reset.Inv

/-- What reset leaves, as far as 10_state.md R24 and 70_reset_and_hazards.md R240 give it: `system` mode, R0 reading 0,
FPSR bits 31:1 zero, `pc` a multiple of 4 whose word is RAM, no store yet. That no byte of memory has a value is THE
MODEL'S CHOICE: R24 leaves memory unspecified but for what the loader placed, the model places no program (log 9) and an
unlisted byte has no value (log 5). The values of the other registers are its choice too (log 1), and nothing is said of
them. -/
def Obligations.ResetState : Prop :=
  State.reset.mode = .system ∧ State.reset.readR 0#5 = 0#32 ∧ State.reset.fpsr.extractLsb' 1 31 = 0#31 ∧
  State.reset.pc.toNat % 4 = 0 ∧ State.reset.platform.allRam State.reset.pc.toNat 4 = true ∧
  (∀ a : Word, State.reset.readByte a = none) ∧ State.reset.stored = []

/-- The mode becomes `user` only by RFE (10_state.md R21): a step from `system` to `user` mode runs RFE, goes to IAR and
changes nothing else. -/
def Obligations.OnlyRfeEntersUserMode : Prop :=
  ∀ s t : State, step s = .next t → s.mode = .system → t.mode = .user → RunsInstr s .rfe ∧ ReturnResult s t

/-- A step of a program in `user` mode either is a trap entry, precise and complete, or stays in `user` mode and leaves
IAR, ECR and EDR alone (60_exceptions.md R213, R220, R221). -/
def Obligations.UserModeLeavesTrapStateAlone : Prop :=
  ∀ s t : State, step s = .next t → s.mode = .user →
    (t.mode = .system ∧ ∃ c info, TrapResult s t c info) ∨ (t.mode = .user ∧ SameTrapState s t)

/-- Each instruction either takes an exception, by a whole trap entry and no other change (60_exceptions.md R213), or
writes, `pc` and the model's counter of draws apart, its own part of the state and no other (10_state.md R12, R17, R19,
R20, R21, 20_memory.md R35): a GPR other than the one its `rd` names (of JAL and JALR, R31) is as before, R0 always; so is
an FPR outside the one or the pair that `rd` names, the comparison bit except by the FP compares and MOVI2S to FPSR, each of
IAR, ECR and EDR except by MOVI2S to it, the mode except by RFE, and every byte outside the ones a store writes at its
effective address. Draws are made by instructions that write FPRs only (logs 7 and 8). -/
def Obligations.InstructionsWriteOnlyTheirPart : Prop :=
  ∀ (i : Instr) (s t : State), exec i s = .next t →
    (∃ c info, TrapResult s t c info) ∨
    ((∀ r, r = 0#5 ∨ partWritten i ≠ .gpr r → t.readR r = s.readR r) ∧
      (∀ r, partWritten i ≠ .fpr r → partWritten i ≠ .pair r → partWritten i ≠ .pair (r - 1#5) →
        t.readF r = s.readF r) ∧
      (partWritten i ≠ .flag → partWritten i ≠ .special 0#5 → t.fpsrC = s.fpsrC) ∧
      (partWritten i ≠ .special 1#5 → t.iar = s.iar) ∧
      (partWritten i ≠ .special 2#5 → t.ecr = s.ecr) ∧
      (partWritten i ≠ .special 3#5 → t.edr = s.edr) ∧
      (partWritten i ≠ .mode → t.mode = s.mode) ∧
      (∀ a : Word, ¬ (partWritten i).HoldsByte s a.toNat → t.readByte a = s.readByte a) ∧
      (∀ b, b ∈ t.stored ↔ b ∈ s.stored ∨ (partWritten i).HoldsByte s b) ∧
      ((∀ r, partWritten i ≠ .fpr r ∧ partWritten i ≠ .pair r) → t.draws = s.draws) ∧
      t.platform = s.platform)

/-- The comparison bit is written by the twelve FP compares and by MOVI2S to special register 0, and by nothing else
(10_state.md R19): a step that changes it runs one of them. -/
def Obligations.OnlyComparesWriteComparisonBit : Prop :=
  ∀ s t : State, step s = .next t → t.fpsrC ≠ s.fpsrC →
    ∃ i, RunsInstr s i ∧ (partWritten i = .flag ∨ ∃ rs1, i = .movi2s 0#5 rs1)
end

