-- ==== Sys2Proof/Machine/Assembly.lean ====
section
/-! DEFINITION. Sys2Proof/Machine/Assembly.lean: the assembler syntax of an instruction (30_encoding.md R65). It is
notation and no part of a step. Numbers are written in decimal, one of the two ways the rule allows; those that the
instruction sign-extends are written signed, the others unsigned (log 21). -/

namespace Sys2Proof.Machine

/-- `R0` to `R31` (R65). -/
def gprName (r : GReg) : String := "R" ++ Nat.repr r.toNat

/-- `F0` to `F31`; a DP pair by its even register (R65). -/
def fprName (r : FReg) : String := "F" ++ Nat.repr r.toNat

/-- `FPSR`, `IAR`, `ECR`, `EDR` or `S<n>` (R65, 10_state.md R18). -/
def specialName (k : SReg) : String :=
  if k = 0#5 then "FPSR"
  else if k = 1#5 then "IAR"
  else if k = 2#5 then "ECR"
  else if k = 3#5 then "EDR"
  else "S" ++ Nat.repr k.toNat

/-- A signed number in decimal. -/
def decimal (v : Int) : String := if v < 0 then "-" ++ Nat.repr v.natAbs else Nat.repr v.natAbs

/-- `#n`, read as signed. -/
def signedImmediate {n : Nat} (v : BitVec n) : String := "#" ++ decimal v.toInt

/-- `#n`, read as unsigned. -/
def unsignedImmediate {n : Nat} (v : BitVec n) : String := "#" ++ Nat.repr v.toNat

/-- `disp(Rs1)`. -/
def displacement (imm : Half) (rs1 : GReg) : String := decimal imm.toInt ++ "(" ++ gprName rs1 ++ ")"

/-- `OP Rd, Rs1`. -/
def gprPair (op : String) (rd rs1 : GReg) : String := op ++ " " ++ gprName rd ++ ", " ++ gprName rs1

/-- `OP Rd, Rs1, Rs2`. -/
def gprTriple (op : String) (rd rs1 rs2 : GReg) : String := gprPair op rd rs1 ++ ", " ++ gprName rs2

/-- `OP Fd, Fs1`, or `OP Fs1, Fs2` of a compare. -/
def fprPair (op : String) (rd rs1 : FReg) : String := op ++ " " ++ fprName rd ++ ", " ++ fprName rs1

/-- What the assembler makes of a label: the target minus the address after the instruction (R65). The field of a branch
is the low 16 bits of it, that of a jump the low 26. -/
def labelOffset (pc target : Word) : Word := target - nextPc pc

/-- The line of assembler text of the instruction at `pc`, where `label` names addresses (the table of R65). -/
def assembly (label : Word → String) (pc : Word) : Instr → String
  | .lb rd rs1 imm => "LB " ++ gprName rd ++ ", " ++ displacement imm rs1
  | .lbu rd rs1 imm => "LBU " ++ gprName rd ++ ", " ++ displacement imm rs1
  | .sb rd rs1 imm => "SB " ++ displacement imm rs1 ++ ", " ++ gprName rd
  | .lh rd rs1 imm => "LH " ++ gprName rd ++ ", " ++ displacement imm rs1
  | .lhu rd rs1 imm => "LHU " ++ gprName rd ++ ", " ++ displacement imm rs1
  | .sh rd rs1 imm => "SH " ++ displacement imm rs1 ++ ", " ++ gprName rd
  | .lw rd rs1 imm => "LW " ++ gprName rd ++ ", " ++ displacement imm rs1
  | .sw rd rs1 imm => "SW " ++ displacement imm rs1 ++ ", " ++ gprName rd
  | .lf rd rs1 imm => "LF " ++ fprName rd ++ ", " ++ displacement imm rs1
  | .ld rd rs1 imm => "LD " ++ fprName rd ++ ", " ++ displacement imm rs1
  | .sf rd rs1 imm => "SF " ++ displacement imm rs1 ++ ", " ++ fprName rd
  | .sd rd rs1 imm => "SD " ++ displacement imm rs1 ++ ", " ++ fprName rd
  | .movi2s rd rs1 => "MOVI2S " ++ specialName rd ++ ", " ++ gprName rs1
  | .movs2i rd rs1 => "MOVS2I " ++ gprName rd ++ ", " ++ specialName rs1
  | .movf rd rs1 => fprPair "MOVF" rd rs1
  | .movd rd rs1 => fprPair "MOVD" rd rs1
  | .movfp2i rd rs1 => "MOVFP2I " ++ gprName rd ++ ", " ++ fprName rs1
  | .movi2fp rd rs1 => "MOVI2FP " ++ fprName rd ++ ", " ++ gprName rs1
  | .add rd rs1 rs2 => gprTriple "ADD" rd rs1 rs2
  | .addi rd rs1 imm => gprPair "ADDI" rd rs1 ++ ", " ++ signedImmediate imm
  | .addu rd rs1 rs2 => gprTriple "ADDU" rd rs1 rs2
  | .addui rd rs1 imm => gprPair "ADDUI" rd rs1 ++ ", " ++ unsignedImmediate imm
  | .sub rd rs1 rs2 => gprTriple "SUB" rd rs1 rs2
  | .subi rd rs1 imm => gprPair "SUBI" rd rs1 ++ ", " ++ signedImmediate imm
  | .subu rd rs1 rs2 => gprTriple "SUBU" rd rs1 rs2
  | .subui rd rs1 imm => gprPair "SUBUI" rd rs1 ++ ", " ++ unsignedImmediate imm
  | .mult rd rs1 rs2 => fprPair "MULT" rd rs1 ++ ", " ++ fprName rs2
  | .multu rd rs1 rs2 => fprPair "MULTU" rd rs1 ++ ", " ++ fprName rs2
  | .div rd rs1 rs2 => fprPair "DIV" rd rs1 ++ ", " ++ fprName rs2
  | .divu rd rs1 rs2 => fprPair "DIVU" rd rs1 ++ ", " ++ fprName rs2
  | .and rd rs1 rs2 => gprTriple "AND" rd rs1 rs2
  | .andi rd rs1 imm => gprPair "ANDI" rd rs1 ++ ", " ++ unsignedImmediate imm
  | .or rd rs1 rs2 => gprTriple "OR" rd rs1 rs2
  | .ori rd rs1 imm => gprPair "ORI" rd rs1 ++ ", " ++ unsignedImmediate imm
  | .xor rd rs1 rs2 => gprTriple "XOR" rd rs1 rs2
  | .xori rd rs1 imm => gprPair "XORI" rd rs1 ++ ", " ++ unsignedImmediate imm
  | .lhi rd imm => "LHI " ++ gprName rd ++ ", " ++ unsignedImmediate imm
  | .sll rd rs1 rs2 => gprTriple "SLL" rd rs1 rs2
  | .srl rd rs1 rs2 => gprTriple "SRL" rd rs1 rs2
  | .sra rd rs1 rs2 => gprTriple "SRA" rd rs1 rs2
  | .slli rd rs1 imm => gprPair "SLLI" rd rs1 ++ ", " ++ unsignedImmediate imm
  | .srli rd rs1 imm => gprPair "SRLI" rd rs1 ++ ", " ++ unsignedImmediate imm
  | .srai rd rs1 imm => gprPair "SRAI" rd rs1 ++ ", " ++ unsignedImmediate imm
  | .slt rd rs1 rs2 => gprTriple "SLT" rd rs1 rs2
  | .sgt rd rs1 rs2 => gprTriple "SGT" rd rs1 rs2
  | .sle rd rs1 rs2 => gprTriple "SLE" rd rs1 rs2
  | .sge rd rs1 rs2 => gprTriple "SGE" rd rs1 rs2
  | .seq rd rs1 rs2 => gprTriple "SEQ" rd rs1 rs2
  | .sne rd rs1 rs2 => gprTriple "SNE" rd rs1 rs2
  | .slti rd rs1 imm => gprPair "SLTI" rd rs1 ++ ", " ++ signedImmediate imm
  | .sgti rd rs1 imm => gprPair "SGTI" rd rs1 ++ ", " ++ signedImmediate imm
  | .slei rd rs1 imm => gprPair "SLEI" rd rs1 ++ ", " ++ signedImmediate imm
  | .sgei rd rs1 imm => gprPair "SGEI" rd rs1 ++ ", " ++ signedImmediate imm
  | .seqi rd rs1 imm => gprPair "SEQI" rd rs1 ++ ", " ++ signedImmediate imm
  | .snei rd rs1 imm => gprPair "SNEI" rd rs1 ++ ", " ++ signedImmediate imm
  | .beqz rs1 imm => "BEQZ " ++ gprName rs1 ++ ", " ++ label (branchTarget pc imm)
  | .bnez rs1 imm => "BNEZ " ++ gprName rs1 ++ ", " ++ label (branchTarget pc imm)
  | .bfpt imm => "BFPT " ++ label (branchTarget pc imm)
  | .bfpf imm => "BFPF " ++ label (branchTarget pc imm)
  | .j off => "J " ++ label (jumpTarget pc off)
  | .jr rs1 => "JR " ++ gprName rs1
  | .jal off => "JAL " ++ label (jumpTarget pc off)
  | .jalr rs1 => "JALR " ++ gprName rs1
  | .trap off => "TRAP " ++ unsignedImmediate off
  | .rfe => "RFE"
  | .addd rd rs1 rs2 => fprPair "ADDD" rd rs1 ++ ", " ++ fprName rs2
  | .addf rd rs1 rs2 => fprPair "ADDF" rd rs1 ++ ", " ++ fprName rs2
  | .subd rd rs1 rs2 => fprPair "SUBD" rd rs1 ++ ", " ++ fprName rs2
  | .subf rd rs1 rs2 => fprPair "SUBF" rd rs1 ++ ", " ++ fprName rs2
  | .multd rd rs1 rs2 => fprPair "MULTD" rd rs1 ++ ", " ++ fprName rs2
  | .multf rd rs1 rs2 => fprPair "MULTF" rd rs1 ++ ", " ++ fprName rs2
  | .divd rd rs1 rs2 => fprPair "DIVD" rd rs1 ++ ", " ++ fprName rs2
  | .divf rd rs1 rs2 => fprPair "DIVF" rd rs1 ++ ", " ++ fprName rs2
  | .cvtf2d rd rs1 => fprPair "CVTF2D" rd rs1
  | .cvtf2i rd rs1 => fprPair "CVTF2I" rd rs1
  | .cvtd2f rd rs1 => fprPair "CVTD2F" rd rs1
  | .cvtd2i rd rs1 => fprPair "CVTD2I" rd rs1
  | .cvti2f rd rs1 => fprPair "CVTI2F" rd rs1
  | .cvti2d rd rs1 => fprPair "CVTI2D" rd rs1
  | .ltd rs1 rs2 => fprPair "LTD" rs1 rs2
  | .gtd rs1 rs2 => fprPair "GTD" rs1 rs2
  | .led rs1 rs2 => fprPair "LED" rs1 rs2
  | .ged rs1 rs2 => fprPair "GED" rs1 rs2
  | .eqd rs1 rs2 => fprPair "EQD" rs1 rs2
  | .ned rs1 rs2 => fprPair "NED" rs1 rs2
  | .ltf rs1 rs2 => fprPair "LTF" rs1 rs2
  | .gtf rs1 rs2 => fprPair "GTF" rs1 rs2
  | .lef rs1 rs2 => fprPair "LEF" rs1 rs2
  | .gef rs1 rs2 => fprPair "GEF" rs1 rs2
  | .eqf rs1 rs2 => fprPair "EQF" rs1 rs2
  | .nef rs1 rs2 => fprPair "NEF" rs1 rs2

end Sys2Proof.Machine
end

