-- ==== Sys2Proof/Laws/Assembly.lean ====
section
/-! SUPPORT. Sys2Proof/Laws/Assembly.lean: a label comes back as the target of the branch or jump written with it. -/

namespace Sys2Proof.Machine

/-- A branch whose field holds the whole offset of a label goes to the label (30_encoding.md R65, 42_control.md R150). -/
theorem branchTarget_labelOffset {pc target : Word} {imm : Half} (h : sext imm = labelOffset pc target) :
    branchTarget pc imm = target := by
  rw [branchTarget, h, labelOffset]
  bv_omega

/-- The same of a jump. -/
theorem jumpTarget_labelOffset {pc target : Word} {off : BitVec 26} (h : sext off = labelOffset pc target) :
    jumpTarget pc off = target := by
  rw [jumpTarget, h, labelOffset]
  bv_omega

end Sys2Proof.Machine
end

