-- ==== Sys2Proof/Laws/Memory.lean ====
section
/-! SUPPORT. Sys2Proof/Laws/Memory.lean: the laws of memory (read after write, writes elsewhere, the canonical form), of
the record of stored bytes, and of the byte order. -/

namespace Sys2Proof.Machine

/-! ## One byte -/

/-- Reading after writing a byte. -/
theorem Memory.read_write (m : Memory) (a : Nat) (v : Byte) (b : Nat) :
    (m.write a v).read b = if b = a then some v else m.read b := by
  induction m with
  | nil => simp [Memory.write, Memory.read]
  | cons c rest ih =>
    obtain ⟨d, u⟩ := c
    simp only [Memory.write]
    split
    · simp [Memory.read]
    · split
      · rename_i h
        subst h
        by_cases hb : b = a <;> simp [Memory.read, hb]
      · rename_i h1 h2
        simp only [Memory.read, ih]
        by_cases hb : b = d
        · have : b ≠ a := by omega
          simp [hb, Ne.symm (show a ≠ d by omega)]
        · simp [hb]

/-- Every entry after a write is the written one or an old one. -/
theorem Memory.mem_write {m : Memory} {a : Nat} {v : Byte} {c : Host.Cell} (h : c ∈ m.write a v) :
    c = (a, v) ∨ c ∈ m := by
  induction m with
  | nil => simpa [Memory.write] using h
  | cons d rest ih =>
    simp only [Memory.write] at h
    split at h
    · simpa using h
    · split at h
      · rcases List.mem_cons.mp h with h | h
        · exact .inl h
        · exact .inr (List.mem_cons_of_mem _ h)
      · rcases List.mem_cons.mp h with h | h
        · exact .inr (h ▸ List.mem_cons_self ..)
        · exact (ih h).imp_right (List.mem_cons_of_mem _)

/-- Writing a byte inside the address space keeps the canonical form. -/
theorem Memory.wf_write {m : Memory} {a : Nat} (v : Byte) (hm : m.wf) (ha : a < 2 ^ 32) : (m.write a v).wf := by
  refine ⟨?_, fun c hc => ?_⟩
  · obtain ⟨hp, -⟩ := hm
    induction m with
    | nil => simp [Memory.write]
    | cons d rest ih =>
      obtain ⟨hd, hr⟩ := List.pairwise_cons.mp hp
      simp only [Memory.write]
      split
      · rename_i hlt
        refine List.pairwise_cons.mpr ⟨fun c hc => ?_, hp⟩
        rcases List.mem_cons.mp hc with rfl | hc
        · exact hlt
        · exact Nat.lt_trans hlt (hd c hc)
      · split
        · rename_i heq
          exact List.pairwise_cons.mpr ⟨fun c hc => by simpa [heq] using hd c hc, hr⟩
        · refine List.pairwise_cons.mpr ⟨fun c hc => ?_, ih hr⟩
          rcases Memory.mem_write hc with rfl | hc
          · simp only; omega
          · exact hd c hc
  · rcases Memory.mem_write hc with rfl | hc
    · exact ha
    · exact hm.2 c hc

/-! ## Several bytes -/

/-- Writing bytes inside the address space keeps the canonical form. -/
theorem Memory.wf_writeBytes {m : Memory} {a : Nat} (bs : List Byte) (hm : m.wf) (ha : a + bs.length ≤ 2 ^ 32) :
    (m.writeBytes a bs).wf := by
  induction bs generalizing m a with
  | nil => exact hm
  | cons b bs ih =>
    simp only [List.length_cons] at ha
    exact ih (Memory.wf_write b hm (by omega)) (by omega)

/-- Reading one byte after writing several: the written byte inside, the old one outside. -/
theorem Memory.read_writeBytes (m : Memory) (a : Nat) (bs : List Byte) (b : Nat) :
    (m.writeBytes a bs).read b = if a ≤ b ∧ b < a + bs.length then bs[b - a]? else m.read b := by
  induction bs generalizing m a with
  | nil => simp [Memory.writeBytes, show ¬ (a ≤ b ∧ b < a) by omega]
  | cons c bs ih =>
    simp only [Memory.writeBytes, ih, Memory.read_write, List.length_cons]
    by_cases h : b = a
    · subst h
      simp [show ¬ (b + 1 ≤ b) by omega]
    · by_cases h' : a + 1 ≤ b ∧ b < a + 1 + bs.length
      · have : b - a = b - (a + 1) + 1 := by omega
        rw [if_pos h', if_pos (by omega), this, List.getElem?_cons_succ]
      · rw [if_neg h', if_neg h, if_neg (by omega)]

/-- Reading several bytes succeeds exactly when each of them reads, and gives them in order. -/
theorem Memory.readBytes_eq_some {m : Memory} {a n : Nat} {bs : List Byte} :
    m.readBytes a n = some bs ↔ bs.length = n ∧ ∀ k < n, m.read (a + k) = bs[k]? := by
  induction n generalizing a bs with
  | zero => cases bs <;> simp [Memory.readBytes]
  | succ n ih =>
    constructor
    · intro h
      simp only [Memory.readBytes] at h
      split at h
      · rename_i b bs' hb hbs
        obtain rfl : b :: bs' = bs := by simpa using h
        obtain ⟨hl, hk⟩ := ih.mp hbs
        refine ⟨by simp [hl], fun k hk' => ?_⟩
        cases k with
        | zero => simpa using hb
        | succ k => simpa [Nat.add_assoc, Nat.add_comm 1 k] using hk k (by omega)
      · cases h
    · rintro ⟨hl, hk⟩
      cases bs with
      | nil => simp at hl
      | cons b bs =>
        have h0 : m.read a = some b := by simpa using hk 0 (by omega)
        have hr : m.readBytes (a + 1) n = some bs :=
          ih.mpr ⟨by simpa using hl, fun k hk' => by
            simpa [Nat.add_assoc, Nat.add_comm 1 k] using hk (k + 1) (by omega)⟩
        simp [Memory.readBytes, h0, hr]

/-! ## The record of stored bytes -/

@[simp] theorem mem_markStored {l : List Nat} {a b : Nat} : b ∈ markStored l a ↔ b ∈ l ∨ b = a := by
  induction l with
  | nil => simp [markStored]
  | cons c rest ih =>
    simp only [markStored]
    split
    · simp only [List.mem_cons]; tauto
    · split
      · rename_i h; subst h; simp only [List.mem_cons]; tauto
      · simp only [List.mem_cons, ih]; tauto

/-- Marking an address keeps the record strictly rising. -/
theorem markStored_rising {l : List Nat} {a : Nat} (h : l.Pairwise (· < ·)) : (markStored l a).Pairwise (· < ·) := by
  induction l with
  | nil => simp [markStored]
  | cons c rest ih =>
    obtain ⟨hc, hr⟩ := List.pairwise_cons.mp h
    simp only [markStored]
    split
    · rename_i hlt
      refine List.pairwise_cons.mpr ⟨fun d hd => ?_, h⟩
      rcases List.mem_cons.mp hd with rfl | hd
      · exact hlt
      · exact Nat.lt_trans hlt (hc d hd)
    · split
      · exact h
      · refine List.pairwise_cons.mpr ⟨fun d hd => ?_, ih hr⟩
        rcases mem_markStored.mp hd with hd | rfl
        · exact hc d hd
        · omega

@[simp] theorem mem_markStoredRange {l : List Nat} {a n b : Nat} :
    b ∈ markStoredRange l a n ↔ b ∈ l ∨ a ≤ b ∧ b < a + n := by
  induction n generalizing l a with
  | zero =>
    simp only [markStoredRange, Nat.add_zero]
    exact ⟨.inl, fun h => h.resolve_right (by omega)⟩
  | succ n ih =>
    simp only [markStoredRange, ih, mem_markStored]
    constructor
    · rintro ((h | rfl) | h)
      · exact .inl h
      · exact .inr (by omega)
      · exact .inr (by omega)
    · rintro (h | h)
      · exact .inl (.inl h)
      · by_cases hb : b = a
        · exact .inl (.inr hb)
        · exact .inr (by omega)

/-- Marking a range keeps the record strictly rising. -/
theorem markStoredRange_rising {l : List Nat} {a n : Nat} (h : l.Pairwise (· < ·)) :
    (markStoredRange l a n).Pairwise (· < ·) := by
  induction n generalizing l a with
  | zero => exact h
  | succ n ih => exact ih (markStored_rising h)

theorem anyStored_eq_true {l : List Nat} {a n : Nat} : anyStored l a n = true ↔ ∃ k < n, a + k ∈ l := by
  induction n generalizing a with
  | zero => simp [anyStored]
  | succ n ih =>
    simp only [anyStored, Bool.or_eq_true, List.contains_iff_mem, ih]
    constructor
    · rintro (h | ⟨k, hk, h⟩)
      · exact ⟨0, by omega, h⟩
      · exact ⟨k + 1, by omega, by simpa [Nat.add_assoc, Nat.add_comm 1 k] using h⟩
    · rintro ⟨k, hk, h⟩
      cases k with
      | zero => exact .inl h
      | succ k => exact .inr ⟨k, by omega, by simpa [Nat.add_assoc, Nat.add_comm 1 k] using h⟩

theorem Platform.allRam_eq_true {p : Platform} {a n : Nat} :
    p.allRam a n = true ↔ ∀ k < n, p.isRam (a + k) = true := by
  induction n generalizing a with
  | zero => simp [Platform.allRam]
  | succ n ih =>
    simp only [Platform.allRam, Bool.and_eq_true, ih]
    constructor
    · rintro ⟨h0, h⟩ k hk
      cases k with
      | zero => exact h0
      | succ k => simpa [Nat.add_assoc, Nat.add_comm 1 k] using h k (by omega)
    · intro h
      exact ⟨h 0 (by omega), fun k hk => by simpa [Nat.add_assoc, Nat.add_comm 1 k] using h (k + 1) (by omega)⟩

/-! ## Byte order -/

@[simp] theorem length_splitBytes {w : Nat} (v : BitVec w) (n : Nat) : (splitBytes v n).length = n := by
  induction n with
  | zero => rfl
  | succ n ih => simp [splitBytes, ih]

/-- Byte `k` of `n` is the one whose low bit is bit `8(n-1-k)` of the value (20_memory.md R37). -/
theorem getElem?_splitBytes {w : Nat} (v : BitVec w) {n k : Nat} (h : k < n) :
    (splitBytes v n)[k]? = some (v.extractLsb' (8 * (n - 1 - k)) 8) := by
  induction n generalizing k with
  | zero => omega
  | succ n ih =>
    cases k with
    | zero => simp [splitBytes]
    | succ k =>
      simp only [splitBytes, List.getElem?_cons_succ, ih (show k < n by omega)]
      rw [show n + 1 - 1 - (k + 1) = n - 1 - k by omega]

/-- A halfword joined from two bytes is their concatenation (20_memory.md R30). -/
theorem joinBytes_half (b0 b1 : Byte) : joinBytes 16 [b0, b1] = (b0 ++ b1 : BitVec 16) := by
  apply BitVec.eq_of_getLsbD_eq
  intro i hi
  simp only [joinBytes, List.foldl, BitVec.getLsbD_append]
  interval_cases i <;> simp

/-- A word joined from four bytes is their concatenation (20_memory.md R30, R31). -/
theorem joinBytes_word (b0 b1 b2 b3 : Byte) : joinBytes 32 [b0, b1, b2, b3] = (b0 ++ b1 ++ b2 ++ b3 : Word) := by
  apply BitVec.eq_of_getLsbD_eq
  intro i hi
  simp only [joinBytes, List.foldl, BitVec.getLsbD_append]
  interval_cases i <;> simp

end Sys2Proof.Machine
end

