-- ==== Sys2Proof/Laws/State.lean ====
section
/-! SUPPORT. Sys2Proof/Laws/State.lean: what each update of the state leaves in each field and in each register read, so
that no later proof unfolds a record update. -/

namespace Sys2Proof.Machine

variable (s : State)

/-! ## Fields after an update -/

@[simp] theorem State.writeF_pc (i : FReg) (v : Word) : (s.writeF i v).pc = s.pc := rfl
@[simp] theorem State.writeF_gprs (i : FReg) (v : Word) : (s.writeF i v).gprs = s.gprs := rfl
@[simp] theorem State.writeF_fprs (i : FReg) (v : Word) : (s.writeF i v).fprs = s.fprs.set i.toNat v i.isLt := rfl
@[simp] theorem State.writeF_fpsrC (i : FReg) (v : Word) : (s.writeF i v).fpsrC = s.fpsrC := rfl
@[simp] theorem State.writeF_iar (i : FReg) (v : Word) : (s.writeF i v).iar = s.iar := rfl
@[simp] theorem State.writeF_ecr (i : FReg) (v : Word) : (s.writeF i v).ecr = s.ecr := rfl
@[simp] theorem State.writeF_edr (i : FReg) (v : Word) : (s.writeF i v).edr = s.edr := rfl
@[simp] theorem State.writeF_mode (i : FReg) (v : Word) : (s.writeF i v).mode = s.mode := rfl
@[simp] theorem State.writeF_mem (i : FReg) (v : Word) : (s.writeF i v).mem = s.mem := rfl
@[simp] theorem State.writeF_stored (i : FReg) (v : Word) : (s.writeF i v).stored = s.stored := rfl
@[simp] theorem State.writeF_draws (i : FReg) (v : Word) : (s.writeF i v).draws = s.draws := rfl
@[simp] theorem State.writeF_platform (i : FReg) (v : Word) : (s.writeF i v).platform = s.platform := rfl

@[simp] theorem State.writeC_pc (b : Bool) : (s.writeC b).pc = s.pc := rfl
@[simp] theorem State.writeC_gprs (b : Bool) : (s.writeC b).gprs = s.gprs := rfl
@[simp] theorem State.writeC_fprs (b : Bool) : (s.writeC b).fprs = s.fprs := rfl
@[simp] theorem State.writeC_fpsrC (b : Bool) : (s.writeC b).fpsrC = b := rfl
@[simp] theorem State.writeC_iar (b : Bool) : (s.writeC b).iar = s.iar := rfl
@[simp] theorem State.writeC_ecr (b : Bool) : (s.writeC b).ecr = s.ecr := rfl
@[simp] theorem State.writeC_edr (b : Bool) : (s.writeC b).edr = s.edr := rfl
@[simp] theorem State.writeC_mode (b : Bool) : (s.writeC b).mode = s.mode := rfl
@[simp] theorem State.writeC_mem (b : Bool) : (s.writeC b).mem = s.mem := rfl
@[simp] theorem State.writeC_stored (b : Bool) : (s.writeC b).stored = s.stored := rfl
@[simp] theorem State.writeC_draws (b : Bool) : (s.writeC b).draws = s.draws := rfl
@[simp] theorem State.writeC_platform (b : Bool) : (s.writeC b).platform = s.platform := rfl

@[simp] theorem State.writeIar_pc (v : Word) : (s.writeIar v).pc = s.pc := rfl
@[simp] theorem State.writeIar_gprs (v : Word) : (s.writeIar v).gprs = s.gprs := rfl
@[simp] theorem State.writeIar_fprs (v : Word) : (s.writeIar v).fprs = s.fprs := rfl
@[simp] theorem State.writeIar_fpsrC (v : Word) : (s.writeIar v).fpsrC = s.fpsrC := rfl
@[simp] theorem State.writeIar_iar (v : Word) : (s.writeIar v).iar = v := rfl
@[simp] theorem State.writeIar_ecr (v : Word) : (s.writeIar v).ecr = s.ecr := rfl
@[simp] theorem State.writeIar_edr (v : Word) : (s.writeIar v).edr = s.edr := rfl
@[simp] theorem State.writeIar_mode (v : Word) : (s.writeIar v).mode = s.mode := rfl
@[simp] theorem State.writeIar_mem (v : Word) : (s.writeIar v).mem = s.mem := rfl
@[simp] theorem State.writeIar_stored (v : Word) : (s.writeIar v).stored = s.stored := rfl
@[simp] theorem State.writeIar_draws (v : Word) : (s.writeIar v).draws = s.draws := rfl
@[simp] theorem State.writeIar_platform (v : Word) : (s.writeIar v).platform = s.platform := rfl

@[simp] theorem State.writeEcr_pc (v : Word) : (s.writeEcr v).pc = s.pc := rfl
@[simp] theorem State.writeEcr_gprs (v : Word) : (s.writeEcr v).gprs = s.gprs := rfl
@[simp] theorem State.writeEcr_fprs (v : Word) : (s.writeEcr v).fprs = s.fprs := rfl
@[simp] theorem State.writeEcr_fpsrC (v : Word) : (s.writeEcr v).fpsrC = s.fpsrC := rfl
@[simp] theorem State.writeEcr_iar (v : Word) : (s.writeEcr v).iar = s.iar := rfl
@[simp] theorem State.writeEcr_ecr (v : Word) : (s.writeEcr v).ecr = v := rfl
@[simp] theorem State.writeEcr_edr (v : Word) : (s.writeEcr v).edr = s.edr := rfl
@[simp] theorem State.writeEcr_mode (v : Word) : (s.writeEcr v).mode = s.mode := rfl
@[simp] theorem State.writeEcr_mem (v : Word) : (s.writeEcr v).mem = s.mem := rfl
@[simp] theorem State.writeEcr_stored (v : Word) : (s.writeEcr v).stored = s.stored := rfl
@[simp] theorem State.writeEcr_draws (v : Word) : (s.writeEcr v).draws = s.draws := rfl
@[simp] theorem State.writeEcr_platform (v : Word) : (s.writeEcr v).platform = s.platform := rfl

@[simp] theorem State.writeEdr_pc (v : Word) : (s.writeEdr v).pc = s.pc := rfl
@[simp] theorem State.writeEdr_gprs (v : Word) : (s.writeEdr v).gprs = s.gprs := rfl
@[simp] theorem State.writeEdr_fprs (v : Word) : (s.writeEdr v).fprs = s.fprs := rfl
@[simp] theorem State.writeEdr_fpsrC (v : Word) : (s.writeEdr v).fpsrC = s.fpsrC := rfl
@[simp] theorem State.writeEdr_iar (v : Word) : (s.writeEdr v).iar = s.iar := rfl
@[simp] theorem State.writeEdr_ecr (v : Word) : (s.writeEdr v).ecr = s.ecr := rfl
@[simp] theorem State.writeEdr_edr (v : Word) : (s.writeEdr v).edr = v := rfl
@[simp] theorem State.writeEdr_mode (v : Word) : (s.writeEdr v).mode = s.mode := rfl
@[simp] theorem State.writeEdr_mem (v : Word) : (s.writeEdr v).mem = s.mem := rfl
@[simp] theorem State.writeEdr_stored (v : Word) : (s.writeEdr v).stored = s.stored := rfl
@[simp] theorem State.writeEdr_draws (v : Word) : (s.writeEdr v).draws = s.draws := rfl
@[simp] theorem State.writeEdr_platform (v : Word) : (s.writeEdr v).platform = s.platform := rfl

@[simp] theorem State.draw_pc : (s.draw).pc = s.pc := rfl
@[simp] theorem State.draw_gprs : (s.draw).gprs = s.gprs := rfl
@[simp] theorem State.draw_fprs : (s.draw).fprs = s.fprs := rfl
@[simp] theorem State.draw_fpsrC : (s.draw).fpsrC = s.fpsrC := rfl
@[simp] theorem State.draw_iar : (s.draw).iar = s.iar := rfl
@[simp] theorem State.draw_ecr : (s.draw).ecr = s.ecr := rfl
@[simp] theorem State.draw_edr : (s.draw).edr = s.edr := rfl
@[simp] theorem State.draw_mode : (s.draw).mode = s.mode := rfl
@[simp] theorem State.draw_mem : (s.draw).mem = s.mem := rfl
@[simp] theorem State.draw_stored : (s.draw).stored = s.stored := rfl
@[simp] theorem State.draw_draws : (s.draw).draws = s.draws + 1 := rfl
@[simp] theorem State.draw_platform : (s.draw).platform = s.platform := rfl

@[simp] theorem State.jump_pc (t : Word) : (s.jump t).pc = t := rfl
@[simp] theorem State.jump_gprs (t : Word) : (s.jump t).gprs = s.gprs := rfl
@[simp] theorem State.jump_fprs (t : Word) : (s.jump t).fprs = s.fprs := rfl
@[simp] theorem State.jump_fpsrC (t : Word) : (s.jump t).fpsrC = s.fpsrC := rfl
@[simp] theorem State.jump_iar (t : Word) : (s.jump t).iar = s.iar := rfl
@[simp] theorem State.jump_ecr (t : Word) : (s.jump t).ecr = s.ecr := rfl
@[simp] theorem State.jump_edr (t : Word) : (s.jump t).edr = s.edr := rfl
@[simp] theorem State.jump_mode (t : Word) : (s.jump t).mode = s.mode := rfl
@[simp] theorem State.jump_mem (t : Word) : (s.jump t).mem = s.mem := rfl
@[simp] theorem State.jump_stored (t : Word) : (s.jump t).stored = s.stored := rfl
@[simp] theorem State.jump_draws (t : Word) : (s.jump t).draws = s.draws := rfl
@[simp] theorem State.jump_platform (t : Word) : (s.jump t).platform = s.platform := rfl

@[simp] theorem State.advance_pc : (s.advance).pc = nextPc s.pc := rfl
@[simp] theorem State.advance_gprs : (s.advance).gprs = s.gprs := rfl
@[simp] theorem State.advance_fprs : (s.advance).fprs = s.fprs := rfl
@[simp] theorem State.advance_fpsrC : (s.advance).fpsrC = s.fpsrC := rfl
@[simp] theorem State.advance_iar : (s.advance).iar = s.iar := rfl
@[simp] theorem State.advance_ecr : (s.advance).ecr = s.ecr := rfl
@[simp] theorem State.advance_edr : (s.advance).edr = s.edr := rfl
@[simp] theorem State.advance_mode : (s.advance).mode = s.mode := rfl
@[simp] theorem State.advance_mem : (s.advance).mem = s.mem := rfl
@[simp] theorem State.advance_stored : (s.advance).stored = s.stored := rfl
@[simp] theorem State.advance_draws : (s.advance).draws = s.draws := rfl
@[simp] theorem State.advance_platform : (s.advance).platform = s.platform := rfl

@[simp] theorem State.takeException_pc (c : Cause) (info : Word) : (s.takeException c info).pc = s.platform.vector c info := rfl
@[simp] theorem State.takeException_gprs (c : Cause) (info : Word) : (s.takeException c info).gprs = s.gprs := rfl
@[simp] theorem State.takeException_fprs (c : Cause) (info : Word) : (s.takeException c info).fprs = s.fprs := rfl
@[simp] theorem State.takeException_fpsrC (c : Cause) (info : Word) : (s.takeException c info).fpsrC = s.fpsrC := rfl
@[simp] theorem State.takeException_iar (c : Cause) (info : Word) : (s.takeException c info).iar = resumeAddress c s.pc := rfl
@[simp] theorem State.takeException_ecr (c : Cause) (info : Word) : (s.takeException c info).ecr = causeCode c := rfl
@[simp] theorem State.takeException_edr (c : Cause) (info : Word) : (s.takeException c info).edr = info := rfl
@[simp] theorem State.takeException_mode (c : Cause) (info : Word) : (s.takeException c info).mode = .system := rfl
@[simp] theorem State.takeException_mem (c : Cause) (info : Word) : (s.takeException c info).mem = s.mem := rfl
@[simp] theorem State.takeException_stored (c : Cause) (info : Word) : (s.takeException c info).stored = s.stored := rfl
@[simp] theorem State.takeException_draws (c : Cause) (info : Word) : (s.takeException c info).draws = s.draws := rfl
@[simp] theorem State.takeException_platform (c : Cause) (info : Word) : (s.takeException c info).platform = s.platform := rfl

@[simp] theorem State.returnFromException_pc : (s.returnFromException).pc = s.iar := rfl
@[simp] theorem State.returnFromException_gprs : (s.returnFromException).gprs = s.gprs := rfl
@[simp] theorem State.returnFromException_fprs : (s.returnFromException).fprs = s.fprs := rfl
@[simp] theorem State.returnFromException_fpsrC : (s.returnFromException).fpsrC = s.fpsrC := rfl
@[simp] theorem State.returnFromException_iar : (s.returnFromException).iar = s.iar := rfl
@[simp] theorem State.returnFromException_ecr : (s.returnFromException).ecr = s.ecr := rfl
@[simp] theorem State.returnFromException_edr : (s.returnFromException).edr = s.edr := rfl
@[simp] theorem State.returnFromException_mode : (s.returnFromException).mode = .user := rfl
@[simp] theorem State.returnFromException_mem : (s.returnFromException).mem = s.mem := rfl
@[simp] theorem State.returnFromException_stored : (s.returnFromException).stored = s.stored := rfl
@[simp] theorem State.returnFromException_draws : (s.returnFromException).draws = s.draws := rfl
@[simp] theorem State.returnFromException_platform : (s.returnFromException).platform = s.platform := rfl

@[simp] theorem State.storeBytes_pc {w : Nat} (a n : Nat) (v : BitVec w) : (s.storeBytes a n v).pc = s.pc := rfl
@[simp] theorem State.storeBytes_gprs {w : Nat} (a n : Nat) (v : BitVec w) : (s.storeBytes a n v).gprs = s.gprs := rfl
@[simp] theorem State.storeBytes_fprs {w : Nat} (a n : Nat) (v : BitVec w) : (s.storeBytes a n v).fprs = s.fprs := rfl
@[simp] theorem State.storeBytes_fpsrC {w : Nat} (a n : Nat) (v : BitVec w) : (s.storeBytes a n v).fpsrC = s.fpsrC := rfl
@[simp] theorem State.storeBytes_iar {w : Nat} (a n : Nat) (v : BitVec w) : (s.storeBytes a n v).iar = s.iar := rfl
@[simp] theorem State.storeBytes_ecr {w : Nat} (a n : Nat) (v : BitVec w) : (s.storeBytes a n v).ecr = s.ecr := rfl
@[simp] theorem State.storeBytes_edr {w : Nat} (a n : Nat) (v : BitVec w) : (s.storeBytes a n v).edr = s.edr := rfl
@[simp] theorem State.storeBytes_mode {w : Nat} (a n : Nat) (v : BitVec w) : (s.storeBytes a n v).mode = s.mode := rfl
@[simp] theorem State.storeBytes_mem {w : Nat} (a n : Nat) (v : BitVec w) : (s.storeBytes a n v).mem = s.mem.writeBytes a (splitBytes v n) := rfl
@[simp] theorem State.storeBytes_stored {w : Nat} (a n : Nat) (v : BitVec w) : (s.storeBytes a n v).stored = markStoredRange s.stored a n := rfl
@[simp] theorem State.storeBytes_draws {w : Nat} (a n : Nat) (v : BitVec w) : (s.storeBytes a n v).draws = s.draws := rfl
@[simp] theorem State.storeBytes_platform {w : Nat} (a n : Nat) (v : BitVec w) : (s.storeBytes a n v).platform = s.platform := rfl

@[simp] theorem State.writeR_pc (i : GReg) (v : Word) : (s.writeR i v).pc = s.pc := by
  unfold State.writeR; split <;> rfl
@[simp] theorem State.writeR_fprs (i : GReg) (v : Word) : (s.writeR i v).fprs = s.fprs := by
  unfold State.writeR; split <;> rfl
@[simp] theorem State.writeR_fpsrC (i : GReg) (v : Word) : (s.writeR i v).fpsrC = s.fpsrC := by
  unfold State.writeR; split <;> rfl
@[simp] theorem State.writeR_iar (i : GReg) (v : Word) : (s.writeR i v).iar = s.iar := by
  unfold State.writeR; split <;> rfl
@[simp] theorem State.writeR_ecr (i : GReg) (v : Word) : (s.writeR i v).ecr = s.ecr := by
  unfold State.writeR; split <;> rfl
@[simp] theorem State.writeR_edr (i : GReg) (v : Word) : (s.writeR i v).edr = s.edr := by
  unfold State.writeR; split <;> rfl
@[simp] theorem State.writeR_mode (i : GReg) (v : Word) : (s.writeR i v).mode = s.mode := by
  unfold State.writeR; split <;> rfl
@[simp] theorem State.writeR_mem (i : GReg) (v : Word) : (s.writeR i v).mem = s.mem := by
  unfold State.writeR; split <;> rfl
@[simp] theorem State.writeR_stored (i : GReg) (v : Word) : (s.writeR i v).stored = s.stored := by
  unfold State.writeR; split <;> rfl
@[simp] theorem State.writeR_draws (i : GReg) (v : Word) : (s.writeR i v).draws = s.draws := by
  unfold State.writeR; split <;> rfl
@[simp] theorem State.writeR_platform (i : GReg) (v : Word) : (s.writeR i v).platform = s.platform := by
  unfold State.writeR; split <;> rfl

@[simp] theorem State.writeD_pc (i : FReg) (v : DWord) : (s.writeD i v).pc = s.pc := rfl
@[simp] theorem State.writeD_gprs (i : FReg) (v : DWord) : (s.writeD i v).gprs = s.gprs := rfl
@[simp] theorem State.writeD_fpsrC (i : FReg) (v : DWord) : (s.writeD i v).fpsrC = s.fpsrC := rfl
@[simp] theorem State.writeD_iar (i : FReg) (v : DWord) : (s.writeD i v).iar = s.iar := rfl
@[simp] theorem State.writeD_ecr (i : FReg) (v : DWord) : (s.writeD i v).ecr = s.ecr := rfl
@[simp] theorem State.writeD_edr (i : FReg) (v : DWord) : (s.writeD i v).edr = s.edr := rfl
@[simp] theorem State.writeD_mode (i : FReg) (v : DWord) : (s.writeD i v).mode = s.mode := rfl
@[simp] theorem State.writeD_mem (i : FReg) (v : DWord) : (s.writeD i v).mem = s.mem := rfl
@[simp] theorem State.writeD_stored (i : FReg) (v : DWord) : (s.writeD i v).stored = s.stored := rfl
@[simp] theorem State.writeD_draws (i : FReg) (v : DWord) : (s.writeD i v).draws = s.draws := rfl
@[simp] theorem State.writeD_platform (i : FReg) (v : DWord) : (s.writeD i v).platform = s.platform := rfl

/-! ## Registers after an update -/

@[simp] theorem State.readR_writeF (i : FReg) (v : Word) (j : GReg) : (s.writeF i v).readR j = s.readR j := rfl
@[simp] theorem State.readByte_writeF (i : FReg) (v : Word) (a : Word) : (s.writeF i v).readByte a = s.readByte a := rfl
@[simp] theorem State.readR_writeC (b : Bool) (j : GReg) : (s.writeC b).readR j = s.readR j := rfl
@[simp] theorem State.readF_writeC (b : Bool) (j : FReg) : (s.writeC b).readF j = s.readF j := rfl
@[simp] theorem State.readD_writeC (b : Bool) (j : FReg) : (s.writeC b).readD j = s.readD j := rfl
@[simp] theorem State.readByte_writeC (b : Bool) (a : Word) : (s.writeC b).readByte a = s.readByte a := rfl
@[simp] theorem State.readR_writeIar (v : Word) (j : GReg) : (s.writeIar v).readR j = s.readR j := rfl
@[simp] theorem State.readF_writeIar (v : Word) (j : FReg) : (s.writeIar v).readF j = s.readF j := rfl
@[simp] theorem State.readD_writeIar (v : Word) (j : FReg) : (s.writeIar v).readD j = s.readD j := rfl
@[simp] theorem State.readByte_writeIar (v : Word) (a : Word) : (s.writeIar v).readByte a = s.readByte a := rfl
@[simp] theorem State.readR_writeEcr (v : Word) (j : GReg) : (s.writeEcr v).readR j = s.readR j := rfl
@[simp] theorem State.readF_writeEcr (v : Word) (j : FReg) : (s.writeEcr v).readF j = s.readF j := rfl
@[simp] theorem State.readD_writeEcr (v : Word) (j : FReg) : (s.writeEcr v).readD j = s.readD j := rfl
@[simp] theorem State.readByte_writeEcr (v : Word) (a : Word) : (s.writeEcr v).readByte a = s.readByte a := rfl
@[simp] theorem State.readR_writeEdr (v : Word) (j : GReg) : (s.writeEdr v).readR j = s.readR j := rfl
@[simp] theorem State.readF_writeEdr (v : Word) (j : FReg) : (s.writeEdr v).readF j = s.readF j := rfl
@[simp] theorem State.readD_writeEdr (v : Word) (j : FReg) : (s.writeEdr v).readD j = s.readD j := rfl
@[simp] theorem State.readByte_writeEdr (v : Word) (a : Word) : (s.writeEdr v).readByte a = s.readByte a := rfl
@[simp] theorem State.readR_draw (j : GReg) : (s.draw).readR j = s.readR j := rfl
@[simp] theorem State.readF_draw (j : FReg) : (s.draw).readF j = s.readF j := rfl
@[simp] theorem State.readD_draw (j : FReg) : (s.draw).readD j = s.readD j := rfl
@[simp] theorem State.readByte_draw (a : Word) : (s.draw).readByte a = s.readByte a := rfl
@[simp] theorem State.readR_jump (t : Word) (j : GReg) : (s.jump t).readR j = s.readR j := rfl
@[simp] theorem State.readF_jump (t : Word) (j : FReg) : (s.jump t).readF j = s.readF j := rfl
@[simp] theorem State.readD_jump (t : Word) (j : FReg) : (s.jump t).readD j = s.readD j := rfl
@[simp] theorem State.readByte_jump (t : Word) (a : Word) : (s.jump t).readByte a = s.readByte a := rfl
@[simp] theorem State.readR_advance (j : GReg) : (s.advance).readR j = s.readR j := rfl
@[simp] theorem State.readF_advance (j : FReg) : (s.advance).readF j = s.readF j := rfl
@[simp] theorem State.readD_advance (j : FReg) : (s.advance).readD j = s.readD j := rfl
@[simp] theorem State.readByte_advance (a : Word) : (s.advance).readByte a = s.readByte a := rfl
@[simp] theorem State.readR_takeException (c : Cause) (info : Word) (j : GReg) : (s.takeException c info).readR j = s.readR j := rfl
@[simp] theorem State.readF_takeException (c : Cause) (info : Word) (j : FReg) : (s.takeException c info).readF j = s.readF j := rfl
@[simp] theorem State.readD_takeException (c : Cause) (info : Word) (j : FReg) : (s.takeException c info).readD j = s.readD j := rfl
@[simp] theorem State.readByte_takeException (c : Cause) (info : Word) (a : Word) : (s.takeException c info).readByte a = s.readByte a := rfl
@[simp] theorem State.readR_returnFromException (j : GReg) : (s.returnFromException).readR j = s.readR j := rfl
@[simp] theorem State.readF_returnFromException (j : FReg) : (s.returnFromException).readF j = s.readF j := rfl
@[simp] theorem State.readD_returnFromException (j : FReg) : (s.returnFromException).readD j = s.readD j := rfl
@[simp] theorem State.readByte_returnFromException (a : Word) : (s.returnFromException).readByte a = s.readByte a := rfl
@[simp] theorem State.readR_storeBytes {w : Nat} (a n : Nat) (v : BitVec w) (j : GReg) : (s.storeBytes a n v).readR j = s.readR j := rfl
@[simp] theorem State.readF_storeBytes {w : Nat} (a n : Nat) (v : BitVec w) (j : FReg) : (s.storeBytes a n v).readF j = s.readF j := rfl
@[simp] theorem State.readD_storeBytes {w : Nat} (a n : Nat) (v : BitVec w) (j : FReg) : (s.storeBytes a n v).readD j = s.readD j := rfl
@[simp] theorem State.readR_writeD (i : FReg) (v : DWord) (j : GReg) : (s.writeD i v).readR j = s.readR j := rfl
@[simp] theorem State.readByte_writeD (i : FReg) (v : DWord) (a : Word) : (s.writeD i v).readByte a = s.readByte a := rfl
@[simp] theorem State.readByte_writeR (i : GReg) (v : Word) (a : Word) : (s.writeR i v).readByte a = s.readByte a := by
  simp [State.readByte]
@[simp] theorem State.readF_writeR (i : GReg) (v : Word) (j : FReg) : (s.writeR i v).readF j = s.readF j := by
  simp [State.readF]
@[simp] theorem State.readD_writeR (i : GReg) (v : Word) (j : FReg) : (s.writeR i v).readD j = s.readD j := by
  simp [State.readD]

/-- R0 reads as 0 in every state (10_state.md R11). -/
@[simp] theorem State.readR_zero : s.readR 0#5 = 0#32 := rfl

/-- Two distinct non-zero GPR numbers name two distinct stored registers. -/
theorem greg_index_inj {i j : GReg} (hi : i ≠ 0#5) (hj : j ≠ 0#5) : i.toNat - 1 = j.toNat - 1 ↔ i = j := by
  have hi' : i.toNat ≠ 0 := fun e => hi (BitVec.eq_of_toNat_eq (by simpa using e))
  have hj' : j.toNat ≠ 0 := fun e => hj (BitVec.eq_of_toNat_eq (by simpa using e))
  constructor
  · intro h
    exact BitVec.eq_of_toNat_eq (by omega)
  · rintro rfl
    rfl

/-- Reading a GPR after a write: the value where it was written, 0 for R0, the old value elsewhere (10_state.md R11). -/
theorem State.readR_writeR (i : GReg) (v : Word) (j : GReg) :
    (s.writeR i v).readR j = if j = 0#5 then 0#32 else if j = i then v else s.readR j := by
  by_cases hj : j = 0#5
  · simp [hj]
  by_cases hi : i = 0#5
  · have : j ≠ i := hi ▸ hj
    simp [State.writeR, hi, hj]
  · simp only [State.readR, State.writeR, BitVec.ofNat_eq_ofNat, hi, hj, dite_false, if_false, Vector.getElem_set,
      greg_index_inj hi hj, eq_comm (a := i)]

/-- Reading an FPR after a write. -/
theorem State.readF_writeF (i : FReg) (v : Word) (j : FReg) :
    (s.writeF i v).readF j = if j = i then v else s.readF j := by
  simp only [State.readF, State.writeF, Vector.getElem_set, BitVec.toNat_inj, eq_comm (a := i)]

/-- Reading an FPR after a pair was written (10_state.md R16). -/
theorem State.readF_writeD (i : FReg) (v : DWord) (j : FReg) :
    (s.writeD i v).readF j =
      if j = i then v.extractLsb' 32 32 else if j = i + 1#5 then v.extractLsb' 0 32 else s.readF j := by
  simp only [State.writeD, State.readF_writeF]
  by_cases h : j = i
  · subst h
    simp
  · simp [h]

end Sys2Proof.Machine
end

