-- ==== Sys2Proof/Laws/Ops.lean ====
section
/-! SUPPORT. Sys2Proof/Laws/Ops.lean: for each shared operation one lemma that says everything it can answer, so that no
later proof unfolds it. -/

namespace Sys2Proof.Machine

variable {s t : State}

/-! ## Accesses -/

@[simp] theorem Access.andThen_done {α : Type} (a : α) (s : State) (k : α → Result) :
    (Access.done a).andThen s k = k a := rfl

@[simp] theorem Access.andThen_raises {α : Type} (c : Cause) (info : Word) (s : State) (k : α → Result) :
    (Access.raises c info : Access α).andThen s k = .next (s.takeException c info) := rfl

/-- An access followed by more work answers a next state in two ways: its result and the work, or its exception. -/
theorem Access.andThen_eq_next {α : Type} {x : Access α} {k : α → Result} :
    x.andThen s k = .next t ↔
      (∃ a, x = .done a ∧ k a = .next t) ∨ (∃ c info, x = .raises c info ∧ t = s.takeException c info) := by
  cases x <;> simp [Access.andThen, State.raise, eq_comm]

/-- When `MemRead` gives a value, and which (20_memory.md R36). -/
theorem State.memRead_eq_done {w n : Nat} {a : Word} {v : BitVec w} :
    s.memRead w a n = .done v ↔
      a.toNat % n = 0 ∧ s.platform.allRam a.toNat n = true ∧
        ∃ bs, s.mem.readBytes a.toNat n = some bs ∧ v = joinBytes w bs := by
  unfold State.memRead
  grind

/-- Which exception `MemRead` raises, and when: misaligned first, then absent (20_memory.md R34, R36). -/
theorem State.memRead_eq_raises {w n : Nat} {a : Word} {c : Cause} {info : Word} :
    s.memRead w a n = .raises c info ↔
      info = a ∧ ((a.toNat % n ≠ 0 ∧ c = .dataMisaligned) ∨
        (a.toNat % n = 0 ∧ s.platform.allRam a.toNat n = false ∧ c = .dataBusError)) := by
  unfold State.memRead
  grind

/-- When `MemWrite` stores, and what (20_memory.md R37). -/
theorem State.memWrite_eq_done {w n : Nat} {a : Word} {v : BitVec w} :
    s.memWrite a n v = .done t ↔
      a.toNat % n = 0 ∧ s.platform.allRam a.toNat n = true ∧ t = s.storeBytes a.toNat n v := by
  unfold State.memWrite
  grind

/-- Which exception `MemWrite` raises, and when: misaligned first, then absent (20_memory.md R34, R37). -/
theorem State.memWrite_eq_raises {w n : Nat} {a : Word} {v : BitVec w} {c : Cause} {info : Word} :
    s.memWrite a n v = .raises c info ↔
      info = a ∧ ((a.toNat % n ≠ 0 ∧ c = .dataMisaligned) ∨
        (a.toNat % n = 0 ∧ s.platform.allRam a.toNat n = false ∧ c = .dataBusError)) := by
  unfold State.memWrite
  grind

/-- Two low bits of a word are zero exactly when it is a multiple of 4. -/
theorem low_bits_eq_zero {a : Word} : a.extractLsb' 0 2 = 0#2 ↔ a.toNat % 4 = 0 := by
  rw [← BitVec.toNat_inj]
  simp [BitVec.extractLsb'_toNat]

/-- When `Fetch` gives a word, and which (20_memory.md R38). -/
theorem State.fetch_eq_done {a w : Word} :
    s.fetch a = .done w ↔
      a.toNat % 4 = 0 ∧ s.platform.allRam a.toNat 4 = true ∧ anyStored s.stored a.toNat 4 = false ∧
        ∃ bs, s.mem.readBytes a.toNat 4 = some bs ∧ w = joinBytes 32 bs := by
  have h := low_bits_eq_zero (a := a)
  unfold State.fetch
  grind

/-- Which exception `Fetch` raises, and when (20_memory.md R38). -/
theorem State.fetch_eq_raises {a : Word} {c : Cause} {info : Word} :
    s.fetch a = .raises c info ↔
      info = a ∧ ((a.toNat % 4 ≠ 0 ∧ c = .fetchMisaligned) ∨
        (a.toNat % 4 = 0 ∧ s.platform.allRam a.toNat 4 = false ∧ c = .fetchBusError)) := by
  have h := low_bits_eq_zero (a := a)
  unfold State.fetch
  grind

/-! ## Guards -/

/-- A well-formed instruction passes the guard on its DP operands. -/
theorem State.withPairs_of_wellFormed {i : Instr} (h : i.wellFormed = true) (k : Result) : s.withPairs i k = k := by
  simp [State.withPairs, h]

/-- An odd register in a DP operand raises IllegalInstruction (30_encoding.md R60, R62). -/
theorem State.withPairs_of_not_wellFormed {i : Instr} (h : i.wellFormed = false) (k : Result) :
    s.withPairs i k = .next (s.takeException .illegalInstruction (encode i)) := by
  simp [State.withPairs, h, State.raise]

/-- A privileged instruction in `system` mode is run. -/
theorem State.privileged_of_system {i : Instr} (h : s.mode = .system) (k : Result) : s.privileged i k = k := by
  simp [State.privileged, h]

/-- A privileged instruction in `user` mode raises PrivilegedInstruction (60_exceptions.md R221). -/
theorem State.privileged_of_user {i : Instr} (h : s.mode = .user) (k : Result) :
    s.privileged i k = .next (s.takeException .privilegedInstruction (encode i)) := by
  simp [State.privileged, h, State.raise]

/-! ## Steps -/

/-- A step answers a next state in three ways: the fetch raises, the word is reserved, or the decoded instruction runs
(00_scope.md R4). -/
theorem step_eq_next :
    step s = .next t ↔
      (∃ c info, s.fetch s.pc = .raises c info ∧ t = s.takeException c info) ∨
      (∃ w e, s.fetch s.pc = .done w ∧ decode w = .error e ∧ t = s.takeException .illegalInstruction w) ∨
      (∃ w i, s.fetch s.pc = .done w ∧ decode w = .ok i ∧ exec i s = .next t) := by
  unfold step
  rw [Access.andThen_eq_next]
  constructor
  · rintro (⟨w, hw, h⟩ | h)
    · cases hd : decode w with
      | ok i => exact .inr (.inr ⟨w, i, hw, hd, by simpa [hd] using h⟩)
      | error e => exact .inr (.inl ⟨w, e, hw, hd, by simpa [hd, State.raise, eq_comm] using h⟩)
    · exact .inl h
  · rintro (h | ⟨w, e, hw, hd, rfl⟩ | ⟨w, i, hw, hd, h⟩)
    · exact .inr h
    · exact .inl ⟨w, hw, by simp [hd, State.raise]⟩
    · exact .inl ⟨w, hw, by simpa [hd] using h⟩

end Sys2Proof.Machine
end

