-- ==== Sys2Proof/Laws/Exec.lean ====
section
/-! SUPPORT. Sys2Proof/Laws/Exec.lean: everything an instruction can do, once for all 91: an invariant of the step is then
one case analysis over the shapes below, with no meaning unfolded again. -/

namespace Sys2Proof.Machine

/-- The bytes that a store writes. -/
theorem Part.holdsByte_memory {rs1 : GReg} {imm : Half} {n : Nat} {s : State} {b : Nat} :
    (Part.memory rs1 imm n).HoldsByte s b ↔
      (effectiveAddress (s.readR rs1) imm).toNat ≤ b ∧ b < (effectiveAddress (s.readR rs1) imm).toNat + n := by
  constructor
  · rintro ⟨_, _, _, h, hb⟩
    cases h
    exact hb
  · exact fun hb => ⟨_, _, _, rfl, hb⟩

/-- No other part of the state holds a byte of memory. -/
theorem Part.not_holdsByte {p : Part} (h : ∀ rs1 imm n, p ≠ .memory rs1 imm n) (s : State) (b : Nat) :
    ¬ p.HoldsByte s b :=
  fun ⟨rs1, imm, n, hp, _⟩ => h rs1 imm n hp

/-- The next states an instruction can answer with, by the update that makes them. -/
inductive Effect (i : Instr) (s : State) : State → Prop where
  | raised (c : Cause) (info : Word) : Effect i s (s.takeException c info)
  | gpr (rd : GReg) (v : Word) (h : partWritten i = .gpr rd) : Effect i s (s.writeR rd v).advance
  | fpr (rd : FReg) (v : Word) (h : partWritten i = .fpr rd) : Effect i s (s.writeF rd v).advance
  | fprDrawn (rd : FReg) (v : Word) (h : partWritten i = .fpr rd) : Effect i s (s.draw.writeF rd v).advance
  | pair (rd : FReg) (v : DWord) (h : partWritten i = .pair rd) : Effect i s (s.writeD rd v).advance
  | pairDrawn (rd : FReg) (v : DWord) (h : partWritten i = .pair rd) : Effect i s (s.draw.writeD rd v).advance
  | compared (b : Bool) (h : partWritten i = .flag) : Effect i s (s.writeC b).advance
  | fpsrWritten (rs1 : GReg) (h : i = .movi2s 0#5 rs1) : Effect i s (s.writeC ((s.readR rs1).getLsbD 0)).advance
  | iarWritten (rs1 : GReg) (h : i = .movi2s 1#5 rs1) (hm : s.mode = .system) (v : Word) :
    Effect i s (s.writeIar v).advance
  | ecrWritten (rs1 : GReg) (h : i = .movi2s 2#5 rs1) (hm : s.mode = .system) (v : Word) :
    Effect i s (s.writeEcr v).advance
  | edrWritten (rs1 : GReg) (h : i = .movi2s 3#5 rs1) (hm : s.mode = .system) (v : Word) :
    Effect i s (s.writeEdr v).advance
  | stored {w : Nat} (rs1 : GReg) (imm : Half) (a : Word) (he : a = effectiveAddress (s.readR rs1) imm) (n : Nat)
    (v : BitVec w) (hn : n = 1 ∨ n = 2 ∨ n = 4 ∨ n = 8) (ha : a.toNat % n = 0)
    (hr : s.platform.allRam a.toNat n = true) (h : partWritten i = .memory rs1 imm n) :
    Effect i s (s.storeBytes a.toNat n v).advance
  | jumped (target : Word) (h : partWritten i = .pc) : Effect i s (s.jump target)
  | linked (target : Word) (h : partWritten i = .gpr 31#5) : Effect i s (s.link.jump target)
  | returned (h : i = .rfe) (hm : s.mode = .system) : Effect i s s.returnFromException

namespace Effect

variable {i : Instr} {s t : State}

theorem of_raise {c : Cause} {info : Word} (h : s.raise c info = .next t) : Effect i s t := by
  obtain rfl : s.takeException c info = t := by simpa [State.raise] using h
  exact .raised c info

theorem of_setR {rd : GReg} {v : Word} (hi : partWritten i = .gpr rd) (h : s.setR rd v = .next t) : Effect i s t := by
  obtain rfl : (s.writeR rd v).advance = t := by simpa [State.setR] using h
  exact .gpr rd v hi

theorem of_setF {rd : FReg} {v : Word} (hi : partWritten i = .fpr rd) (h : s.setF rd v = .next t) : Effect i s t := by
  obtain rfl : (s.writeF rd v).advance = t := by simpa [State.setF] using h
  exact .fpr rd v hi

theorem of_setD {rd : FReg} {v : DWord} (hi : partWritten i = .pair rd) (h : s.setD rd v = .next t) : Effect i s t := by
  obtain rfl : (s.writeD rd v).advance = t := by simpa [State.setD] using h
  exact .pair rd v hi

theorem of_setRChecked {b : Bool} {rd : GReg} {v : Word} (hi : partWritten i = .gpr rd)
    (h : s.setRChecked b rd v = .next t) : Effect i s t := by
  unfold State.setRChecked at h
  split at h
  · exact of_raise h
  · exact of_setR hi h

theorem of_setSp {rd : FReg} {x : FloatValue} (hi : partWritten i = .fpr rd) (h : s.setSp rd x = .next t) :
    Effect i s t := by
  unfold State.setSp at h
  split at h
  · exact of_setF hi h
  · obtain rfl := Host.Outcome.next.inj h
    exact .fprDrawn _ _ hi

theorem of_setDp {rd : FReg} {x : FloatValue} (hi : partWritten i = .pair rd) (h : s.setDp rd x = .next t) :
    Effect i s t := by
  unfold State.setDp at h
  split at h
  · exact of_setD hi h
  · obtain rfl := Host.Outcome.next.inj h
    exact .pairDrawn _ _ hi

theorem of_setTruncated {rd : FReg} {x : FloatValue} (hi : partWritten i = .fpr rd)
    (h : s.setTruncated rd x = .next t) : Effect i s t := by
  unfold State.setTruncated at h
  split at h
  · exact of_setF hi h
  · obtain rfl := Host.Outcome.next.inj h
    exact .fprDrawn _ _ hi

theorem of_setCompare {c : Cond} {x y : FloatValue} (hi : partWritten i = .flag)
    (h : s.setCompare c x y = .next t) : Effect i s t := by
  obtain rfl := Host.Outcome.next.inj h
  exact .compared _ hi

theorem of_withPairs {j : Instr} {k : Result} (hk : k = .next t → Effect i s t)
    (h : s.withPairs j k = .next t) : Effect i s t := by
  unfold State.withPairs at h
  split at h
  · exact hk h
  · exact of_raise h

theorem of_privileged {j : Instr} {k : Result} (hk : s.mode = .system → k = .next t → Effect i s t)
    (h : s.privileged j k = .next t) : Effect i s t := by
  unfold State.privileged at h
  split at h
  · exact of_raise h
  · exact hk ‹_› h

theorem of_load {w n : Nat} {rs1 : GReg} {imm : Half} {k : BitVec w → Result}
    (hk : ∀ v, k v = .next t → Effect i s t) (h : s.load w n rs1 imm k = .next t) : Effect i s t := by
  rcases Access.andThen_eq_next.mp h with ⟨v, -, h⟩ | ⟨c, info, -, rfl⟩
  · exact hk v h
  · exact .raised c info

theorem of_store {w n : Nat} {rs1 : GReg} {imm : Half} {v : BitVec w} (hi : partWritten i = .memory rs1 imm n)
    (hn : n = 1 ∨ n = 2 ∨ n = 4 ∨ n = 8) (h : s.store n rs1 imm v = .next t) : Effect i s t := by
  rcases Access.andThen_eq_next.mp h with ⟨u, hu, h⟩ | ⟨c, info, -, rfl⟩
  · obtain ⟨ha, hr, rfl⟩ := State.memWrite_eq_done.mp hu
    obtain rfl := Host.Outcome.next.inj h
    exact .stored rs1 imm _ rfl n v hn ha hr hi
  · exact .raised c info

theorem of_branchIf {b : Bool} {imm : Half} (hi : partWritten i = .pc) (h : s.branchIf b imm = .next t) :
    Effect i s t := by
  obtain rfl := Host.Outcome.next.inj h
  cases b
  · exact .jumped _ hi
  · exact .jumped _ hi

theorem of_movi2s {rd : SReg} {rs1 : GReg} (h : execMovi2s rd rs1 s = .next t) : Effect (.movi2s rd rs1) s t := by
  unfold execMovi2s at h
  split at h
  · rename_i h0
    obtain rfl : rd = 0#5 := BitVec.eq_of_toNat_eq (by simpa using h0)
    obtain rfl := Host.Outcome.next.inj h
    exact .fpsrWritten rs1 rfl
  · rename_i hk
    obtain rfl : rd = 1#5 := BitVec.eq_of_toNat_eq (by simpa using hk)
    refine of_privileged (fun hm h => ?_) h
    obtain rfl := Host.Outcome.next.inj h
    exact .iarWritten rs1 rfl hm _
  · rename_i hk
    obtain rfl : rd = 2#5 := BitVec.eq_of_toNat_eq (by simpa using hk)
    refine of_privileged (fun hm h => ?_) h
    obtain rfl := Host.Outcome.next.inj h
    exact .ecrWritten rs1 rfl hm _
  · rename_i hk
    obtain rfl : rd = 3#5 := BitVec.eq_of_toNat_eq (by simpa using hk)
    refine of_privileged (fun hm h => ?_) h
    obtain rfl := Host.Outcome.next.inj h
    exact .edrWritten rs1 rfl hm _
  · exact of_raise h

theorem of_movs2i {rd : GReg} {rs1 : SReg} (h : execMovs2i rd rs1 s = .next t) : Effect (.movs2i rd rs1) s t := by
  unfold execMovs2i at h
  split at h
  · exact of_setR rfl h
  · exact of_privileged (fun _ => of_setR rfl) h
  · exact of_privileged (fun _ => of_setR rfl) h
  · exact of_privileged (fun _ => of_setR rfl) h
  · exact of_raise h

theorem of_mult {rd rs1 rs2 : FReg} (h : execMult rd rs1 rs2 s = .next t) : Effect (.mult rd rs1 rs2) s t := by
  unfold execMult at h
  dsimp only at h
  split at h
  · exact of_raise h
  · exact of_setF rfl h

theorem of_div {rd rs1 rs2 : FReg} (h : execDiv rd rs1 rs2 s = .next t) : Effect (.div rd rs1 rs2) s t := by
  unfold execDiv at h
  dsimp only at h
  split at h
  · exact of_raise h
  · split at h
    · exact of_raise h
    · exact of_setF rfl h

theorem of_divu {rd rs1 rs2 : FReg} (h : execDivu rd rs1 rs2 s = .next t) : Effect (.divu rd rs1 rs2) s t := by
  unfold execDivu at h
  dsimp only at h
  split at h
  · exact of_raise h
  · exact of_setF rfl h

end Effect

/-- Everything an instruction can do when it answers a next state. -/
theorem exec_effect {i : Instr} {s t : State} (h : exec i s = .next t) : Effect i s t := by
  cases i with
  | lb _ _ _ => exact .of_load (fun _ => .of_setR rfl) h
  | lbu _ _ _ => exact .of_load (fun _ => .of_setR rfl) h
  | sb _ _ _ => exact .of_store rfl (by decide) h
  | lh _ _ _ => exact .of_load (fun _ => .of_setR rfl) h
  | lhu _ _ _ => exact .of_load (fun _ => .of_setR rfl) h
  | sh _ _ _ => exact .of_store rfl (by decide) h
  | lw _ _ _ => exact .of_load (fun _ => .of_setR rfl) h
  | sw _ _ _ => exact .of_store rfl (by decide) h
  | lf _ _ _ => exact .of_load (fun _ => .of_setF rfl) h
  | ld _ _ _ => exact .of_withPairs (.of_load fun _ => .of_setD rfl) h
  | sf _ _ _ => exact .of_store rfl (by decide) h
  | sd _ _ _ => exact .of_withPairs (.of_store rfl (by decide)) h
  | movi2s _ _ => exact .of_movi2s h
  | movs2i _ _ => exact .of_movs2i h
  | movf _ _ => exact .of_setF rfl h
  | movd _ _ => exact .of_withPairs (.of_setD rfl) h
  | movfp2i _ _ => exact .of_setR rfl h
  | movi2fp _ _ => exact .of_setF rfl h
  | add _ _ _ => exact .of_setRChecked rfl h
  | addi _ _ _ => exact .of_setRChecked rfl h
  | addu _ _ _ => exact .of_setR rfl h
  | addui _ _ _ => exact .of_setR rfl h
  | sub _ _ _ => exact .of_setRChecked rfl h
  | subi _ _ _ => exact .of_setRChecked rfl h
  | subu _ _ _ => exact .of_setR rfl h
  | subui _ _ _ => exact .of_setR rfl h
  | mult _ _ _ => exact .of_mult h
  | multu _ _ _ => exact .of_setF rfl h
  | div _ _ _ => exact .of_div h
  | divu _ _ _ => exact .of_divu h
  | and _ _ _ => exact .of_setR rfl h
  | andi _ _ _ => exact .of_setR rfl h
  | or _ _ _ => exact .of_setR rfl h
  | ori _ _ _ => exact .of_setR rfl h
  | xor _ _ _ => exact .of_setR rfl h
  | xori _ _ _ => exact .of_setR rfl h
  | lhi _ _ => exact .of_setR rfl h
  | sll _ _ _ => exact .of_setR rfl h
  | srl _ _ _ => exact .of_setR rfl h
  | sra _ _ _ => exact .of_setR rfl h
  | slli _ _ _ => exact .of_setR rfl h
  | srli _ _ _ => exact .of_setR rfl h
  | srai _ _ _ => exact .of_setR rfl h
  | slt _ _ _ => exact .of_setR rfl h
  | sgt _ _ _ => exact .of_setR rfl h
  | sle _ _ _ => exact .of_setR rfl h
  | sge _ _ _ => exact .of_setR rfl h
  | seq _ _ _ => exact .of_setR rfl h
  | sne _ _ _ => exact .of_setR rfl h
  | slti _ _ _ => exact .of_setR rfl h
  | sgti _ _ _ => exact .of_setR rfl h
  | slei _ _ _ => exact .of_setR rfl h
  | sgei _ _ _ => exact .of_setR rfl h
  | seqi _ _ _ => exact .of_setR rfl h
  | snei _ _ _ => exact .of_setR rfl h
  | beqz _ _ => exact .of_branchIf rfl h
  | bnez _ _ => exact .of_branchIf rfl h
  | bfpt _ => exact .of_branchIf rfl h
  | bfpf _ => exact .of_branchIf rfl h
  | j _ => exact Host.Outcome.next.inj h ▸ .jumped _ rfl
  | jr _ => exact Host.Outcome.next.inj h ▸ .jumped _ rfl
  | jal _ => exact Host.Outcome.next.inj h ▸ .linked _ rfl
  | jalr _ => exact Host.Outcome.next.inj h ▸ .linked _ rfl
  | trap _ => exact .of_raise h
  | rfe => exact .of_privileged (fun hm h => Host.Outcome.next.inj h ▸ .returned rfl hm) h
  | addd _ _ _ => exact .of_withPairs (.of_setDp rfl) h
  | addf _ _ _ => exact .of_setSp rfl h
  | subd _ _ _ => exact .of_withPairs (.of_setDp rfl) h
  | subf _ _ _ => exact .of_setSp rfl h
  | multd _ _ _ => exact .of_withPairs (.of_setDp rfl) h
  | multf _ _ _ => exact .of_setSp rfl h
  | divd _ _ _ => exact .of_withPairs (.of_setDp rfl) h
  | divf _ _ _ => exact .of_setSp rfl h
  | cvtf2d _ _ => exact .of_withPairs (.of_setDp rfl) h
  | cvtf2i _ _ => exact .of_setTruncated rfl h
  | cvtd2f _ _ => exact .of_withPairs (.of_setSp rfl) h
  | cvtd2i _ _ => exact .of_withPairs (.of_setTruncated rfl) h
  | cvti2f rd rs1 => exact .of_setSp (rd := rd) (x := .ofInt (s.readF rs1).toInt) rfl h
  | cvti2d _ _ => exact .of_withPairs (.of_setDp rfl) h
  | ltd _ _ => exact .of_withPairs (.of_setCompare rfl) h
  | gtd _ _ => exact .of_withPairs (.of_setCompare rfl) h
  | led _ _ => exact .of_withPairs (.of_setCompare rfl) h
  | ged _ _ => exact .of_withPairs (.of_setCompare rfl) h
  | eqd _ _ => exact .of_withPairs (.of_setCompare rfl) h
  | ned _ _ => exact .of_withPairs (.of_setCompare rfl) h
  | ltf _ _ => exact .of_setCompare rfl h
  | gtf _ _ => exact .of_setCompare rfl h
  | lef _ _ => exact .of_setCompare rfl h
  | gef _ _ => exact .of_setCompare rfl h
  | eqf _ _ => exact .of_setCompare rfl h
  | nef _ _ => exact .of_setCompare rfl h

end Sys2Proof.Machine
end

