-- ==== Sys2Proof/Laws/Float.lean ====
section
/-! SUPPORT. Sys2Proof/Laws/Float.lean: what the patterns of a format stand for, counted in smallest subnormals, and what
rounding to a multiple of a unit does (43_floating_point.md R170, R171). -/

namespace Sys2Proof.Machine

/-- A pattern `k * 2^fracBits + q` stands for `q * 2^k`, also where `q` is below `2^fracBits` (subnormal, `k = 0`) or has
reached `2^(fracBits+1)`. -/
theorem FloatFormat.units_pattern (fmt : FloatFormat) (k q : Nat) (h1 : k = 0 ∨ 2 ^ fmt.fracBits ≤ q)
    (h2 : q ≤ 2 ^ (fmt.fracBits + 1)) : fmt.units (k * 2 ^ fmt.fracBits + q) = q * 2 ^ k := by
  obtain ⟨f, mx, sc⟩ := fmt
  simp only [FloatFormat.units] at *
  have hp : 0 < 2 ^ f := by positivity
  rw [pow_succ] at h2
  generalize hP : 2 ^ f = P at *
  have hd : (k * P + q) / P = k + q / P := by rw [Nat.add_comm, Nat.add_mul_div_right _ _ hp, Nat.add_comm]
  have hm : (k * P + q) % P = q % P := by rw [Nat.add_comm, Nat.add_mul_mod_self_right]
  rw [hd, hm]
  by_cases hq : q < P
  · rw [Nat.div_eq_of_lt hq]
    obtain rfl : k = 0 := by rcases h1 with h | h <;> omega
    simp
  · by_cases hq2 : q = 2 * P
    · subst hq2; simp [hp.ne']; rw [pow_succ]; ring
    · have : q / P = 1 := by rw [Nat.div_eq_iff hp]; omega
      rw [this]; simp
      rw [Nat.mod_eq_sub_mod (by omega), Nat.mod_eq_of_lt (by omega)]; omega

/-- A finite pattern denotes what its magnitude bits stand for, counted in smallest subnormals (43_floating_point.md
R170). -/
theorem FloatFormat.value_eq_units (fmt : FloatFormat) (s : Bool) (e f : Nat) (he : e < fmt.maxExp)
    (hf : f < 2 ^ fmt.fracBits) :
    fmt.value s e f = .finite s (fmt.units (e * 2 ^ fmt.fracBits + f)) (2 ^ fmt.scale) := by
  have hp : 0 < 2 ^ fmt.fracBits := by positivity
  have hdv : (e * 2 ^ fmt.fracBits + f) / 2 ^ fmt.fracBits = e := by
    rw [Nat.add_comm, Nat.add_mul_div_right _ _ hp, Nat.div_eq_of_lt hf, Nat.zero_add]
  have hmd : (e * 2 ^ fmt.fracBits + f) % 2 ^ fmt.fracBits = f := by
    rw [Nat.add_comm, Nat.add_mul_mod_self_right, Nat.mod_eq_of_lt hf]
  unfold FloatFormat.value FloatFormat.units
  rw [hdv, hmd, if_neg (by omega)]
  split
  · rename_i h
    simp [h]
  · rfl

/-- The sign bit and the magnitude bits of a rounded single-precision number. -/
theorem rnd32_finite (s : Bool) (n d : Nat) :
    rnd32 (.finite s n d) = some (BitVec.ofBool s ++ BitVec.ofNat 31 (FloatFormat.sp.roundMagnitude n d) : Word) := rfl

/-- The sign bit and the magnitude bits of a rounded double-precision number. -/
theorem rnd64_finite (s : Bool) (n d : Nat) :
    rnd64 (.finite s n d) = some (BitVec.ofBool s ++ BitVec.ofNat 63 (FloatFormat.dp.roundMagnitude n d) : DWord) := rfl

/-- A larger pattern stands for a larger number. -/
theorem FloatFormat.units_strictMono (fmt : FloatFormat) : StrictMono fmt.units := by
  apply strictMono_nat_of_lt_succ
  intro m
  obtain ⟨f, mx, sc⟩ := fmt
  have hp : 0 < 2 ^ f := by positivity
  have hm := Nat.div_add_mod m (2^f)
  have hlt := Nat.mod_lt m hp
  set F : FloatFormat := ⟨f, mx, sc⟩
  by_cases h0 : m / 2^f = 0
  · have e1 := FloatFormat.units_pattern F 0 m (.inl rfl)
      (by rw [pow_succ]; show m ≤ 2^f * 2; rw [h0] at hm; omega)
    have e2 := FloatFormat.units_pattern F 0 (m+1) (.inl rfl)
      (by rw [pow_succ]; show m + 1 ≤ 2^f * 2; rw [h0] at hm; omega)
    simp only [zero_mul, zero_add, pow_zero, mul_one] at e1 e2
    rw [e1, e2]; omega
  · obtain ⟨k, hk⟩ := Nat.exists_eq_succ_of_ne_zero h0
    have em : m = k * 2 ^ f + (2 ^ f + m % 2 ^ f) := by rw [hk, Nat.succ_eq_add_one, Nat.mul_add] at hm; rw [Nat.mul_comm k]; omega
    have e1 := FloatFormat.units_pattern F k (2^f + m % 2^f)
      (.inr (by show 2^f ≤ _; omega)) (by rw [pow_succ]; show _ ≤ 2^f*2; omega)
    have e2 := FloatFormat.units_pattern F k (2^f + m % 2^f + 1)
      (.inr (by show 2^f ≤ _; omega)) (by rw [pow_succ]; show _ ≤ 2^f*2; omega)
    have e3 : m + 1 = k * 2 ^ f + (2 ^ f + m % 2 ^ f + 1) := by omega
    change F.units (k * 2 ^ f + _) = _ at e1 e2
    rw [← em] at e1; rw [← e3] at e2
    rw [e1, e2]
    exact Nat.mul_lt_mul_of_pos_right (by omega) (by positivity)

/-- A pattern stands for a multiple of `2^k` or for less than `2^(fracBits+k)`. -/
theorem FloatFormat.units_multiple_or_lt (fmt : FloatFormat) (m k : Nat) :
    (∃ j, fmt.units m = j * 2 ^ k) ∨ fmt.units m < 2 ^ (fmt.fracBits + k) := by
  unfold FloatFormat.units
  have hp : 0 < 2 ^ fmt.fracBits := by positivity
  have hlt := Nat.mod_lt m hp
  split
  · rename_i h; right
    have := (Nat.div_eq_zero_iff.mp h).resolve_left (by omega)
    calc m < 2 ^ fmt.fracBits := this
      _ ≤ _ := Nat.pow_le_pow_right (by decide) (by omega)
  · by_cases hk : k ≤ m / 2 ^ fmt.fracBits - 1
    · left; obtain ⟨d, hd⟩ := Nat.exists_eq_add_of_le hk
      rw [hd]; exact ⟨(2 ^ fmt.fracBits + m % 2 ^ fmt.fracBits) * 2^d, by rw [pow_add]; ring⟩
    · right
      calc _ < (2 ^ (fmt.fracBits + 1)) * 2 ^ (m / 2 ^ fmt.fracBits - 1) := by
            apply Nat.mul_lt_mul_of_pos_right _ (by positivity); rw [pow_succ]; omega
        _ = 2 ^ (fmt.fracBits + 1 + (m / 2 ^ fmt.fracBits - 1)) := by rw [← pow_add]
        _ ≤ _ := Nat.pow_le_pow_right (by decide) (by omega)

/-- No multiple of the unit is nearer than the one `roundNearestEven` gives, which is even where another is as near
(43_floating_point.md R171). -/
theorem roundNearestEven_nearest (n u j : Nat) (hu : 0 < u) :
    ((n : Int) - (roundNearestEven n u * u : Nat)).natAbs ≤ ((n : Int) - (j * u : Nat)).natAbs ∧
    (j ≠ roundNearestEven n u →
      ((n : Int) - (roundNearestEven n u * u : Nat)).natAbs = ((n : Int) - (j * u : Nat)).natAbs →
      roundNearestEven n u % 2 = 0) := by
  unfold roundNearestEven
  have hd := Nat.div_add_mod n u
  have hlt := Nat.mod_lt n hu
  dsimp only
  generalize hq : n / u = q at *
  generalize n % u = r at *
  have hn : n = q * u + r := by rw [← hd]; ring
  subst hn
  have h1 : (q+1)*u = q*u+u := by ring
  rcases Nat.lt_trichotomy j q with h | h | h
  · have : j * u + u ≤ q * u := by calc j*u+u = (j+1)*u := by ring
      _ ≤ _ := Nat.mul_le_mul_right _ h
    split
    · push_cast; constructor <;> [omega; omega]
    · split
      · rw [h1]; omega
      · rcases Nat.mod_two_eq_zero_or_one q with e | e <;> rw [e]
        · simp only [Nat.add_zero]; omega
        · rw [h1]; omega
  · subst h
    split
    · omega
    · split
      · rw [h1]; omega
      · rcases Nat.mod_two_eq_zero_or_one j with e | e <;> rw [e]
        · simp only [Nat.add_zero]; omega
        · rw [h1]; omega
  · have : q * u + u ≤ j * u := by calc q*u+u = (q+1)*u := by ring
      _ ≤ _ := Nat.mul_le_mul_right _ h
    have h3 : j = q + 1 ∨ q * u + 2 * u ≤ j * u := by
      by_cases hj : j = q + 1
      · exact .inl hj
      · right; calc q*u+2*u = (q+2)*u := by ring
          _ ≤ _ := Nat.mul_le_mul_right _ (by omega)
    split
    · omega
    · split
      · rw [h1]; omega
      · rcases Nat.mod_two_eq_zero_or_one q with e | e <;> rw [e]
        · simp only [Nat.add_zero]; omega
        · rw [h1]; omega

end Sys2Proof.Machine
end

