-- ==== Sys2Proof/Laws/Results.lean ====
section
/-! SUPPORT. Sys2Proof/Laws/Results.lean: for each shape that meanings share (one register written, a store, trap entry),
one lemma that says what an instruction of that shape answers, in the terms of Sys2Proof/Safety.lean. A proof about an
instruction shows which shape its meaning is and cites the lemma. -/

namespace Sys2Proof.Machine

variable {i : Instr} {s : State}

/-! ## Exceptions -/

/-- Trap entry makes the five writes and nothing else (60_exceptions.md R214). -/
theorem State.takeException_result (s : State) (c : Cause) (info : Word) :
    TrapResult s (s.takeException c info) c info := by
  refine ⟨?_, rfl, rfl, rfl, rfl, fun _ => rfl, fun _ => rfl, rfl, ⟨fun _ => rfl, rfl⟩, rfl, rfl⟩
  cases c <;> rfl

theorem Answers.of_raise {c : Cause} {info : Word} (h : exec i s = s.raise c info) :
    Answers i s (TrapResult s · c info) :=
  ⟨_, h, s.takeException_result c info⟩

/-- A guarded instruction with an odd register in a DP operand (30_encoding.md R60, R62). -/
theorem Answers.of_not_wellFormed {k : Result} (h : exec i s = s.withPairs i k) (hi : i.wellFormed = false) :
    Answers i s (TrapResult s · .illegalInstruction (encode i)) :=
  .of_raise (h.trans (State.withPairs_of_not_wellFormed hi k))

/-! ## One part of the state written -/

theorem Answers.of_setR {rd : GReg} {v : Word} (h : exec i s = s.setR rd v) : Answers i s (GprResult s · rd v) := by
  refine ⟨_, h, fun j => ?_, ?_, fun j => ?_, ?_, ?_, ?_, ?_, ?_⟩ <;>
    simp [State.readR_writeR, State.advance, nextPc, SameTrapState, SameMemory]

theorem Answers.of_setF {rd : FReg} {v : Word} (h : exec i s = s.setF rd v) : Answers i s (FprResult s · rd v) := by
  refine ⟨_, h, ⟨fun j => ?_, ?_, fun j => ?_, ?_, ?_, ?_, ?_⟩, ?_⟩ <;>
    simp [State.readF_writeF, State.advance, nextPc, SameTrapState, SameMemory]

theorem Answers.of_setD {rd : FReg} {v : DWord} (h : exec i s = s.setD rd v) : Answers i s (PairResult s · rd v) := by
  refine ⟨_, h, ⟨fun j => ?_, ?_, fun j => ?_, ?_, ?_, ?_, ?_⟩, ?_⟩ <;>
    simp [State.readF_writeD, State.advance, nextPc, SameTrapState, SameMemory]

/-- A compare: the comparison bit is its condition of how the operands compare (43_floating_point.md R188). -/
theorem Answers.of_setCompare {c : Cond} {x y : FloatValue} (h : exec i s = s.setCompare c x y) :
    Answers i s (FlagResult s · (c.holds (x.compare y))) :=
  ⟨_, h, rfl, rfl, fun _ => rfl, fun _ => rfl, ⟨rfl, rfl, rfl, rfl⟩, ⟨fun _ => rfl, rfl⟩, rfl, rfl⟩

/-! ## Free values -/

theorem isQuietNaN32_quietNaN32 (draw : Word) : IsQuietNaN32 (quietNaN32 draw) := by
  apply BitVec.eq_of_getLsbD_eq
  intro i hi
  simp only [quietNaN32, BitVec.getLsbD_extractLsb', BitVec.getLsbD_or]
  interval_cases i <;> simp

theorem isQuietNaN64_quietNaN64 (draw : DWord) : IsQuietNaN64 (quietNaN64 draw) := by
  apply BitVec.eq_of_getLsbD_eq
  intro i hi
  simp only [quietNaN64, BitVec.getLsbD_extractLsb', BitVec.getLsbD_or]
  interval_cases i <;> simp

/-- A single-precision result: its rounding, or some quiet NaN (43_floating_point.md R171, R173). -/
theorem Answers.of_setSp {rd : FReg} {z : FloatValue} (h : exec i s = s.setSp rd z) :
    (∀ v, rnd32 z = some v → Answers i s (FprResult s · rd v)) ∧
    (z = .nan → Answers i s fun t => ∃ v, IsQuietNaN32 v ∧ FprWritten s t rd v) := by
  refine ⟨fun v hv => .of_setF (h.trans (by simp [State.setSp, hv])), ?_⟩
  rintro rfl
  refine ⟨_, h.trans rfl, quietNaN32 (Config.nanDrawSp s.draws), isQuietNaN32_quietNaN32 _, fun j => ?_, rfl,
    fun _ => rfl, rfl, ⟨rfl, rfl, rfl, rfl⟩, ⟨fun _ => rfl, rfl⟩, rfl⟩
  simp [State.readF_writeF]

/-- A double-precision result: its rounding, or some quiet NaN (43_floating_point.md R171, R173). -/
theorem Answers.of_setDp {rd : FReg} {z : FloatValue} (h : exec i s = s.setDp rd z) :
    (∀ v, rnd64 z = some v → Answers i s (PairResult s · rd v)) ∧
    (z = .nan → Answers i s fun t => ∃ v, IsQuietNaN64 v ∧ PairWritten s t rd v) := by
  refine ⟨fun v hv => .of_setD (h.trans (by simp [State.setDp, hv])), ?_⟩
  rintro rfl
  refine ⟨_, h.trans rfl, quietNaN64 (Config.nanDrawDp s.draws), isQuietNaN64_quietNaN64 _, fun j => ?_, rfl,
    fun _ => rfl, rfl, ⟨rfl, rfl, rfl, rfl⟩, ⟨fun _ => rfl, rfl⟩, rfl⟩
  simp [State.readF_writeD]

/-- A conversion to integer: the integer part, or some word where it is no signed word (43_floating_point.md R183). -/
theorem Answers.of_setTruncated {rd : FReg} {x : FloatValue} (h : exec i s = s.setTruncated rd x) :
    (∀ k, x.truncate = some k → Answers i s (FprResult s · rd (BitVec.ofInt 32 k))) ∧
    (x.truncate = none → Answers i s fun t => ∃ v, FprWritten s t rd v) := by
  refine ⟨fun k hk => .of_setF (h.trans (by simp [State.setTruncated, hk])), fun hx => ?_⟩
  have hd : exec i s = s.draw.setF rd (Config.cvtDraw s.draws) := h.trans (by simp [State.setTruncated, hx])
  refine ⟨_, hd, Config.cvtDraw s.draws, fun j => ?_, rfl, fun _ => rfl, rfl, ⟨rfl, rfl, rfl, rfl⟩,
    ⟨fun _ => rfl, rfl⟩, rfl⟩
  simp [State.readF_writeF]

/-! ## Loads and stores -/

/-- A load goes on with the value read (20_memory.md R36). -/
theorem State.load_of_memRead {w n : Nat} {rs1 : GReg} {imm : Half} {k : BitVec w → Result} {v : BitVec w}
    (h : s.memRead w (s.readR rs1 + imm.signExtend 32) n = .done v) : s.load w n rs1 imm k = k v := by
  unfold State.load effectiveAddress sext
  rw [h]
  rfl

/-- The exceptions of a load (20_memory.md R36). -/
theorem AccessTraps.of_load {w n : Nat} {rs1 : GReg} {imm : Half} {k : BitVec w → Result}
    (h : exec i s = s.load w n rs1 imm k) : AccessTraps i s (s.readR rs1 + imm.signExtend 32) n := by
  refine ⟨fun h1 => ⟨_, ?_, s.takeException_result _ _⟩, fun h1 h2 => ⟨_, ?_, s.takeException_result _ _⟩⟩ <;>
    rw [h] <;> unfold State.load effectiveAddress sext
  · rw [State.memRead_eq_raises.mpr ⟨rfl, .inl ⟨h1, rfl⟩⟩]
    rfl
  · rw [State.memRead_eq_raises.mpr ⟨rfl, .inr ⟨h1, h2, rfl⟩⟩]
    rfl

/-- The exceptions of a store (20_memory.md R37). -/
theorem AccessTraps.of_store {w n : Nat} {rs1 : GReg} {imm : Half} {v : BitVec w}
    (h : exec i s = s.store n rs1 imm v) : AccessTraps i s (s.readR rs1 + imm.signExtend 32) n := by
  refine ⟨fun h1 => ⟨_, ?_, s.takeException_result _ _⟩, fun h1 h2 => ⟨_, ?_, s.takeException_result _ _⟩⟩ <;>
    rw [h] <;> unfold State.store effectiveAddress sext
  · rw [State.memWrite_eq_raises.mpr ⟨rfl, .inl ⟨h1, rfl⟩⟩]
    rfl
  · rw [State.memWrite_eq_raises.mpr ⟨rfl, .inr ⟨h1, h2, rfl⟩⟩]
    rfl

/-- A store that is accessible writes its bytes and nothing else (20_memory.md R37). -/
theorem Answers.of_store {w n : Nat} {rs1 : GReg} {imm : Half} {v : BitVec w} (h : exec i s = s.store n rs1 imm v)
    (ha : Accessible s (s.readR rs1 + imm.signExtend 32) n) :
    Answers i s (StoreResult s · (s.readR rs1 + imm.signExtend 32) n v) := by
  refine ⟨(s.storeBytes (s.readR rs1 + imm.signExtend 32).toNat n v).advance, ?_, fun b => ?_, fun b => ?_, rfl,
    fun _ => rfl, fun _ => rfl, rfl, ⟨rfl, rfl, rfl, rfl⟩, rfl, rfl⟩
  · rw [h]
    unfold State.store effectiveAddress sext
    rw [State.memWrite_eq_done.mpr ⟨ha.1, ha.2, rfl⟩]
    rfl
  · show (s.mem.writeBytes _ _).read _ = _
    rw [Memory.read_writeBytes, length_splitBytes]
    split
    · rw [getElem?_splitBytes _ (by omega)]
    · rfl
  · show b ∈ markStoredRange _ _ _ ↔ _
    simp

/-! ## The fetched instruction -/

/-- Why the bytes at `pc` are fetched as the word they hold (20_memory.md R38). -/
theorem FetchesWord.fetch {w : Word} (h : FetchesWord s w) : s.fetch s.pc = .done w := by
  obtain ⟨h0, h1, h2, b0, b1, b2, b3⟩ := h
  have hp := s.pc.isLt
  have a1 : (s.pc + 1#32).toNat = s.pc.toNat + 1 := by simp; omega
  have a2 : (s.pc + 2#32).toNat = s.pc.toNat + 1 + 1 := by simp; omega
  have a3 : (s.pc + 3#32).toNat = s.pc.toNat + 1 + 1 + 1 := by simp; omega
  unfold State.readByte at b0 b1 b2 b3
  rw [a1] at b1
  rw [a2] at b2
  rw [a3] at b3
  refine State.fetch_eq_done.mpr ⟨h0, h1, ?_,
    [w.extractLsb' 24 8, w.extractLsb' 16 8, w.extractLsb' 8 8, w.extractLsb' 0 8],
    by simp [Memory.readBytes, b0, b1, b2, b3], ?_⟩
  · cases hs : anyStored s.stored s.pc.toNat 4 with
    | false => rfl
    | true =>
      obtain ⟨k, hk, hm⟩ := anyStored_eq_true.mp hs
      exact absurd hm (h2 k hk)
  · rw [joinBytes_word]
    apply BitVec.eq_of_getLsbD_eq
    intro i hi
    simp only [BitVec.getLsbD_append, BitVec.getLsbD_extractLsb']
    interval_cases i <;> simp

end Sys2Proof.Machine
end

