-- ==== Sys2Proof/Tests/Slice0.lean ====
section
/-! SUPPORT. Sys2Proof/Tests/Slice0.lean: tests on fixed values, whose expected results come from spec/95_test_vectors.md
or are worked out by hand from the rules, and for every statement of the obligations that has hypotheses a state and
operands that meet them (theorems `witness_…`). -/

open Sys2Proof Sys2Proof.Machine

namespace Sys2Proof.Tests

set_option maxRecDepth 4000
set_option Elab.async false

/-! ## Helpers -/

/-- The state of the vectors of 95_test_vectors.md: RAM at 0 to 0xFFFF, eight bytes at 0x2000, `user` mode, `pc` at
0x1000. -/
def start : State :=
  { State.reset with
    pc := 0x1000#32
    mode := .user
    platform := ⟨[⟨0, 0x10000⟩], []⟩
    mem := [(0x2000, 0x80), (0x2001, 0xFF), (0x2002, 0x7F), (0x2003, 0x01), (0x2004, 0x12), (0x2005, 0x34),
      (0x2006, 0x56), (0x2007, 0x78)] }

/-- What is seen of the state after a step on an instruction word placed at `pc`. -/
def after {α : Type} (w : Word) (s : State) (see : State → α) : Option α :=
  match step (s.withFetchWord 32 w.toNat) with
  | .next t => some (see t)
  | .fault _ => none
  | .refused _ => none

/-- Whether an outcome is a next state with a property. -/
def answers (r : Result) (p : State → Bool) : Bool :=
  match r with
  | .next t => p t
  | .fault _ => false
  | .refused _ => false

theorem exists_next {r : Result} {p : State → Bool} (h : answers r p = true) : ∃ t, r = .next t ∧ p t = true := by
  cases r with
  | next t => exact ⟨t, rfl, h⟩
  | fault f => exact absurd h (by simp [answers])
  | refused f => exact absurd h (by simp [answers])

/-! ## Well-formedness and encoding -/

/-- The check refuses an odd register in each DP operand of each instruction that has one (30_encoding.md R60). -/
theorem test_wellFormed_refuses : ∀ i ∈ [
    Instr.ld 1 2 0, .sd 3 2 0, .movd 1 2, .movd 2 1, .addd 1 2 4, .addd 0 3 4, .addd 0 2 5, .subd 1 2 4, .subd 0 3 4,
    .subd 0 2 5, .multd 1 2 4, .multd 0 3 4, .multd 0 2 5, .divd 1 2 4, .divd 0 3 4, .divd 0 2 31, .cvtf2d 1 2,
    .cvtd2f 2 1, .cvtd2i 2 1, .cvti2d 1 2, .ltd 1 2, .ltd 2 1, .gtd 1 2, .gtd 2 1, .led 1 2, .led 2 1, .ged 1 2,
    .ged 2 1, .eqd 1 2, .eqd 2 1, .ned 1 2, .ned 2 1], i.wellFormed = false := by
  decide

/-- It admits an odd register where no DP pair is named. -/
theorem test_wellFormed_admits : ∀ i ∈ [
    Instr.ld 30 31 1, .lf 31 1 0, .movf 1 3, .addf 1 3 5, .cvtf2d 30 31, .cvtd2f 31 30, .cvti2d 0 1, .ltf 1 3,
    .mult 1 3 5], i.wellFormed = true := by
  decide

/-- One word of each instruction of the family, its fields written bit by bit from 30_encoding.md R51 to R53 and the
numbers of R56, R59 and R61. -/
theorem test_decode_data_transfer : ∀ p ∈ [
    ((0b100000_00100_01010_1000000000000011#32 : Word), Instr.lb 10 4 0x8003),
    ((0b100100_00100_01010_1000000000000011#32 : Word), Instr.lbu 10 4 0x8003),
    ((0b101000_00100_01010_1000000000000011#32 : Word), Instr.sb 10 4 0x8003),
    ((0b100001_00100_01010_1000000000000011#32 : Word), Instr.lh 10 4 0x8003),
    ((0b100101_00100_01010_1000000000000011#32 : Word), Instr.lhu 10 4 0x8003),
    ((0b101001_00100_01010_1000000000000011#32 : Word), Instr.sh 10 4 0x8003),
    ((0b100011_00100_01010_1000000000000011#32 : Word), Instr.lw 10 4 0x8003),
    ((0b101011_00100_01010_1000000000000011#32 : Word), Instr.sw 10 4 0x8003),
    ((0b100110_00100_01010_1000000000000011#32 : Word), Instr.lf 10 4 0x8003),
    ((0b100111_00100_01010_1000000000000011#32 : Word), Instr.ld 10 4 0x8003),
    ((0b101110_00100_01010_1000000000000011#32 : Word), Instr.sf 10 4 0x8003),
    ((0b101111_00100_01010_1000000000000011#32 : Word), Instr.sd 10 4 0x8003),
    ((0b000000_00100_00000_01010_00000110000#32 : Word), Instr.movi2s 10 4),
    ((0b000000_00100_00000_01010_00000110001#32 : Word), Instr.movs2i 10 4),
    ((0b000000_00100_00000_01010_00000110010#32 : Word), Instr.movf 10 4),
    ((0b000000_00100_00000_01010_00000110011#32 : Word), Instr.movd 10 4),
    ((0b000000_00100_00000_01010_00000110100#32 : Word), Instr.movfp2i 10 4),
    ((0b000000_00100_00000_01010_00000110101#32 : Word), Instr.movi2fp 10 4)], decode p.1 = .ok p.2 := by
  decide +kernel

/-- One word of each instruction of the family, its fields written bit by bit from 30_encoding.md R51 to R53 and the
numbers of R56, R59 and R61. -/
theorem test_decode_arithmetic_register : ∀ p ∈ [
    ((0b000000_00100_00110_01010_00000100000#32 : Word), Instr.add 10 4 6),
    ((0b001000_00100_01010_1000000000000011#32 : Word), Instr.addi 10 4 0x8003),
    ((0b000000_00100_00110_01010_00000100001#32 : Word), Instr.addu 10 4 6),
    ((0b001001_00100_01010_1000000000000011#32 : Word), Instr.addui 10 4 0x8003),
    ((0b000000_00100_00110_01010_00000100010#32 : Word), Instr.sub 10 4 6),
    ((0b001010_00100_01010_1000000000000011#32 : Word), Instr.subi 10 4 0x8003),
    ((0b000000_00100_00110_01010_00000100011#32 : Word), Instr.subu 10 4 6),
    ((0b001011_00100_01010_1000000000000011#32 : Word), Instr.subui 10 4 0x8003),
    ((0b000001_00100_00110_01010_00000001110#32 : Word), Instr.mult 10 4 6),
    ((0b000001_00100_00110_01010_00000010110#32 : Word), Instr.multu 10 4 6),
    ((0b000001_00100_00110_01010_00000001111#32 : Word), Instr.div 10 4 6),
    ((0b000001_00100_00110_01010_00000010111#32 : Word), Instr.divu 10 4 6),
    ((0b000000_00100_00110_01010_00000100100#32 : Word), Instr.and 10 4 6),
    ((0b001100_00100_01010_1000000000000011#32 : Word), Instr.andi 10 4 0x8003),
    ((0b000000_00100_00110_01010_00000100101#32 : Word), Instr.or 10 4 6),
    ((0b001101_00100_01010_1000000000000011#32 : Word), Instr.ori 10 4 0x8003),
    ((0b000000_00100_00110_01010_00000100110#32 : Word), Instr.xor 10 4 6),
    ((0b001110_00100_01010_1000000000000011#32 : Word), Instr.xori 10 4 0x8003)], decode p.1 = .ok p.2 := by
  decide +kernel

/-- One word of each instruction of the family, its fields written bit by bit from 30_encoding.md R51 to R53 and the
numbers of R56, R59 and R61. -/
theorem test_decode_arithmetic_rest : ∀ p ∈ [
    ((0b001111_00000_01010_1000000000000011#32 : Word), Instr.lhi 10 0x8003),
    ((0b000000_00100_00110_01010_00000000100#32 : Word), Instr.sll 10 4 6),
    ((0b000000_00100_00110_01010_00000000110#32 : Word), Instr.srl 10 4 6),
    ((0b000000_00100_00110_01010_00000000111#32 : Word), Instr.sra 10 4 6),
    ((0b010100_00100_01010_1000000000000011#32 : Word), Instr.slli 10 4 0x8003),
    ((0b010110_00100_01010_1000000000000011#32 : Word), Instr.srli 10 4 0x8003),
    ((0b010111_00100_01010_1000000000000011#32 : Word), Instr.srai 10 4 0x8003),
    ((0b000000_00100_00110_01010_00000101010#32 : Word), Instr.slt 10 4 6),
    ((0b000000_00100_00110_01010_00000101011#32 : Word), Instr.sgt 10 4 6),
    ((0b000000_00100_00110_01010_00000101100#32 : Word), Instr.sle 10 4 6),
    ((0b000000_00100_00110_01010_00000101101#32 : Word), Instr.sge 10 4 6),
    ((0b000000_00100_00110_01010_00000101000#32 : Word), Instr.seq 10 4 6),
    ((0b000000_00100_00110_01010_00000101001#32 : Word), Instr.sne 10 4 6),
    ((0b011010_00100_01010_1000000000000011#32 : Word), Instr.slti 10 4 0x8003),
    ((0b011011_00100_01010_1000000000000011#32 : Word), Instr.sgti 10 4 0x8003),
    ((0b011100_00100_01010_1000000000000011#32 : Word), Instr.slei 10 4 0x8003),
    ((0b011101_00100_01010_1000000000000011#32 : Word), Instr.sgei 10 4 0x8003),
    ((0b011000_00100_01010_1000000000000011#32 : Word), Instr.seqi 10 4 0x8003),
    ((0b011001_00100_01010_1000000000000011#32 : Word), Instr.snei 10 4 0x8003)], decode p.1 = .ok p.2 := by
  decide +kernel

/-- One word of each instruction of the family, its fields written bit by bit from 30_encoding.md R51 to R53 and the
numbers of R56, R59 and R61. -/
theorem test_decode_control : ∀ p ∈ [
    ((0b000100_00100_00000_1000000000000011#32 : Word), Instr.beqz 4 0x8003),
    ((0b000101_00100_00000_1000000000000011#32 : Word), Instr.bnez 4 0x8003),
    ((0b000110_00000_00000_1000000000000011#32 : Word), Instr.bfpt 0x8003),
    ((0b000111_00000_00000_1000000000000011#32 : Word), Instr.bfpf 0x8003),
    ((0b000010_10000000000000000000000101#32 : Word), Instr.j 0x2000005),
    ((0b010010_00100_00000_0000000000000000#32 : Word), Instr.jr 4),
    ((0b000011_10000000000000000000000101#32 : Word), Instr.jal 0x2000005),
    ((0b010011_00100_00000_0000000000000000#32 : Word), Instr.jalr 4),
    ((0b010001_10000000000000000000000101#32 : Word), Instr.trap 0x2000005),
    ((0b010000_00000000000000000000000000#32 : Word), Instr.rfe)], decode p.1 = .ok p.2 := by
  decide +kernel

/-- One word of each instruction of the family, its fields written bit by bit from 30_encoding.md R51 to R53 and the
numbers of R56, R59 and R61. -/
theorem test_decode_floating_point : ∀ p ∈ [
    ((0b000001_00100_00110_01010_00000000100#32 : Word), Instr.addd 10 4 6),
    ((0b000001_00100_00110_01010_00000000000#32 : Word), Instr.addf 10 4 6),
    ((0b000001_00100_00110_01010_00000000101#32 : Word), Instr.subd 10 4 6),
    ((0b000001_00100_00110_01010_00000000001#32 : Word), Instr.subf 10 4 6),
    ((0b000001_00100_00110_01010_00000000110#32 : Word), Instr.multd 10 4 6),
    ((0b000001_00100_00110_01010_00000000010#32 : Word), Instr.multf 10 4 6),
    ((0b000001_00100_00110_01010_00000000111#32 : Word), Instr.divd 10 4 6),
    ((0b000001_00100_00110_01010_00000000011#32 : Word), Instr.divf 10 4 6),
    ((0b000001_00100_00000_01010_00000001000#32 : Word), Instr.cvtf2d 10 4),
    ((0b000001_00100_00000_01010_00000001001#32 : Word), Instr.cvtf2i 10 4),
    ((0b000001_00100_00000_01010_00000001010#32 : Word), Instr.cvtd2f 10 4),
    ((0b000001_00100_00000_01010_00000001011#32 : Word), Instr.cvtd2i 10 4),
    ((0b000001_00100_00000_01010_00000001100#32 : Word), Instr.cvti2f 10 4),
    ((0b000001_00100_00000_01010_00000001101#32 : Word), Instr.cvti2d 10 4),
    ((0b000001_00100_00110_00000_00000011010#32 : Word), Instr.ltd 4 6),
    ((0b000001_00100_00110_00000_00000011011#32 : Word), Instr.gtd 4 6),
    ((0b000001_00100_00110_00000_00000011100#32 : Word), Instr.led 4 6),
    ((0b000001_00100_00110_00000_00000011101#32 : Word), Instr.ged 4 6),
    ((0b000001_00100_00110_00000_00000011000#32 : Word), Instr.eqd 4 6),
    ((0b000001_00100_00110_00000_00000011001#32 : Word), Instr.ned 4 6),
    ((0b000001_00100_00110_00000_00000010010#32 : Word), Instr.ltf 4 6),
    ((0b000001_00100_00110_00000_00000010011#32 : Word), Instr.gtf 4 6),
    ((0b000001_00100_00110_00000_00000010100#32 : Word), Instr.lef 4 6),
    ((0b000001_00100_00110_00000_00000010101#32 : Word), Instr.gef 4 6),
    ((0b000001_00100_00110_00000_00000010000#32 : Word), Instr.eqf 4 6),
    ((0b000001_00100_00110_00000_00000010001#32 : Word), Instr.nef 4 6)], decode p.1 = .ok p.2 := by
  decide +kernel

/-- Reserved words: all zeros, an unassigned opcode, an unassigned function, a must-be-zero field, an odd DP register
(30_encoding.md R62). -/
theorem test_decode_reserved :
    let words : List Word := [0x00000000#32, 0xC0000000#32, 0x0400001E#32, 0x00000060#32, 0x40000001#32, 0x3C211234#32,
      0x04020804#32]
    words.map decode = words.map fun w => .error (.reservedEncoding w) := by
  decide +kernel

/-- The encoder gives the words that 95_test_vectors.md gives. -/
theorem test_encode : encode (.sw 3 2 4) = 0xAC430004#32 ∧ encode (.divd 0 2 4) = 0x04440007#32 ∧
    encode (.jalr 31) = 0x4FE00000#32 ∧ encode (.bfpt 0x8000) = 0x18008000#32 ∧ encode .rfe = 0x40000000#32 := by
  decide

/-- The table's bytes are read big-endian (20_memory.md R31). -/
theorem test_decodeTableWord : decodeTableWord 32 0x8C41FFFC = some (.lw 1 2 0xFFFC) ∧ decodeTableWord 32 0 = none := by
  decide +kernel

/-- Decoding bytes takes four of them. -/
theorem test_decodeBytes : decodeBytes [0x40, 0, 0, 0, 7] = .ok (.rfe, [7]) ∧ decodeBytes [0x40, 0, 0] = .error (.truncated 3) := by
  decide +kernel

/-! ## One step of each instruction, from 95_test_vectors.md -/

/-- 95_test_vectors.md 2.1 vector 1: `LB R1, 0(R2)`. -/
theorem test_lb_1 : after 0x80410000#32 (start.writeR 2 0x00002000#32)
    (fun t => (t.readR 1, t.pc)) = some (0xFFFFFF80#32, 0x1004#32) := by
  decide +kernel

/-- 95_test_vectors.md 2.1 vector 2: `LBU R1, 0(R2)`. -/
theorem test_lbu_1 : after 0x90410000#32 (start.writeR 2 0x00002000#32)
    (fun t => (t.readR 1, t.pc)) = some (0x00000080#32, 0x1004#32) := by
  decide +kernel

/-- 95_test_vectors.md 2.1 vector 15: `SB -1(R2), R3`. -/
theorem test_sb_1 : after 0xA043FFFF#32 ((start.writeR 2 0x00010000#32).writeR 3 0x000001FF#32)
    (fun t => (t.mem.readBytes 0xFFFF 1, t.pc)) = some (some [0xFF#8], 0x1004#32) := by
  decide +kernel

/-- 95_test_vectors.md 2.1 vector 4: `LH R1, 0(R2)`. -/
theorem test_lh_1 : after 0x84410000#32 (start.writeR 2 0x00002000#32)
    (fun t => (t.readR 1, t.pc)) = some (0xFFFF80FF#32, 0x1004#32) := by
  decide +kernel

/-- 95_test_vectors.md 2.1 vector 12: `LH R1, 1(R2)`. -/
theorem test_lh_2 : after 0x84410001#32 ((start.writeR 2 0x00002000#32).writeR 1 0xAAAAAAAA#32)
    (fun t => (t.ecr, t.edr, t.iar, t.readR 1)) = some (5#32, 0x2001#32, 0x1000#32, 0xAAAAAAAA#32) := by
  decide +kernel

/-- 95_test_vectors.md 2.1 vector 5: `LHU R1, 0(R2)`. -/
theorem test_lhu_1 : after 0x94410000#32 (start.writeR 2 0x00002000#32)
    (fun t => (t.readR 1, t.pc)) = some (0x000080FF#32, 0x1004#32) := by
  decide +kernel

/-- 95_test_vectors.md 2.1 vector 17: `SH 2(R2), R3`. -/
theorem test_sh_1 : after 0xA4430002#32 ((start.writeR 2 0x00002000#32).writeR 3 0x123456AB#32)
    (fun t => (t.mem.readBytes 0x2002 2, t.pc)) = some (some [0x56#8, 0xAB#8], 0x1004#32) := by
  decide +kernel

/-- 95_test_vectors.md 2.1 vector 19: `SH 1(R2), R3`. -/
theorem test_sh_2 : after 0xA4430001#32 ((start.writeR 2 0x00002000#32).writeR 3 0x123456AB#32)
    (fun t => (t.ecr, t.edr, t.iar)) = some (5#32, 0x2001#32, 0x1000#32) := by
  decide +kernel

/-- 95_test_vectors.md 2.1 vector 8: `LW R1, -4(R2)`. -/
theorem test_lw_1 : after 0x8C41FFFC#32 (start.writeR 2 0x00002008#32)
    (fun t => (t.readR 1, t.pc)) = some (0x12345678#32, 0x1004#32) := by
  decide +kernel

/-- 95_test_vectors.md 2.1 vector 18: `SW 4(R2), R3`. -/
theorem test_sw_1 : after 0xAC430004#32 ((start.writeR 2 0x00002000#32).writeR 3 0x123456AB#32)
    (fun t => (t.mem.readBytes 0x2004 4, t.pc)) = some (some [0x12#8, 0x34#8, 0x56#8, 0xAB#8], 0x1004#32) := by
  decide +kernel

/-- 95_test_vectors.md 2.13 vector 9: `SW 0(R2), R3`. -/
theorem test_sw_2 : after 0xAC430000#32 ((start.writeR 2 0x00010000#32).writeR 3 0x00000000#32)
    (fun t => (t.ecr, t.edr, t.iar)) = some (6#32, 0x10000#32, 0x1000#32) := by
  decide +kernel

/-- 95_test_vectors.md 2.1 vector 22: `LF F1, 0(R2)`. -/
theorem test_lf_1 : after 0x98410000#32 (start.writeR 2 0x00002000#32)
    (fun t => (t.readF 1, t.pc)) = some (0x80FF7F01#32, 0x1004#32) := by
  decide +kernel

/-- 95_test_vectors.md 2.1 vector 23: `LD F2, 0(R2)`. -/
theorem test_ld_1 : after 0x9C420000#32 (start.writeR 2 0x00002000#32)
    (fun t => (t.readF 2, t.readF 3, t.pc)) = some (0x80FF7F01#32, 0x12345678#32, 0x1004#32) := by
  decide +kernel

/-- 95_test_vectors.md 2.1 vector 24: `LD F2, 4(R2)`. -/
theorem test_ld_2 : after 0x9C420004#32 (start.writeR 2 0x00002000#32)
    (fun t => (t.ecr, t.edr, t.iar)) = some (5#32, 0x2004#32, 0x1000#32) := by
  decide +kernel

/-- 95_test_vectors.md 2.1 vector 25: `SF 4(R2), F1`. -/
theorem test_sf_1 : after 0xB8410004#32 ((start.writeR 2 0x00002000#32).writeF 1 0x3F800000#32)
    (fun t => (t.mem.readBytes 0x2004 4, t.pc)) = some (some [0x3F#8, 0x80#8, 0x00#8, 0x00#8], 0x1004#32) := by
  decide +kernel

/-- 95_test_vectors.md 2.1 vector 26: `SD 0(R2), F4`. -/
theorem test_sd_1 : after 0xBC440000#32 (((start.writeR 2 0x00002000#32).writeF 4 0x3FF00000#32).writeF 5 0x00000001#32)
    (fun t => (t.mem.readBytes 0x2000 8, t.pc)) = some (some [0x3F#8, 0xF0#8, 0x00#8, 0x00#8, 0x00#8, 0x00#8, 0x00#8, 0x01#8], 0x1004#32) := by
  decide +kernel

/-- 95_test_vectors.md 2.12 vector 15: `SD 0(R2), F5`. -/
theorem test_sd_2 : after 0xBC450000#32 (((start.writeR 2 0x00002000#32).writeF 5 0x00000000#32).writeF 6 0x00000000#32)
    (fun t => (t.ecr, t.edr, t.iar)) = some (1#32, 0xBC450000#32, 0x1000#32) := by
  decide +kernel

/-- 95_test_vectors.md 2.2 vector 1: `MOVI2S FPSR, R5`. -/
theorem test_movi2s_1 : after 0x00A00030#32 ((start.writeR 5 0x00000003#32).writeC false)
    (fun t => (t.fpsrC, t.pc)) = some (true, 0x1004#32) := by
  decide +kernel

/-- 95_test_vectors.md 2.2 vector 4: `MOVI2S IAR, R5`. -/
theorem test_movi2s_2 : after 0x00A00830#32 (start.writeR 5 0x00002000#32)
    (fun t => (t.ecr, t.edr, t.iar)) = some (2#32, 0xA00830#32, 0x1000#32) := by
  decide +kernel

/-- 95_test_vectors.md 2.2 vector 3: `MOVS2I R4, FPSR`. -/
theorem test_movs2i_1 : after 0x00002031#32 (start.writeC true)
    (fun t => (t.readR 4, t.pc)) = some (0x00000001#32, 0x1004#32) := by
  decide +kernel

/-- 95_test_vectors.md 2.2 vector 7: `MOVS2I R4, S4`. -/
theorem test_movs2i_2 : after 0x00802031#32 { start with mode := .system }
    (fun t => (t.ecr, t.edr, t.iar)) = some (1#32, 0x802031#32, 0x1000#32) := by
  decide +kernel

/-- 95_test_vectors.md 2.2 vector 9: `MOVF F7, F4`. -/
theorem test_movf_1 : after 0x00803832#32 (start.writeF 4 0x7FA00001#32)
    (fun t => (t.readF 7, t.pc)) = some (0x7FA00001#32, 0x1004#32) := by
  decide +kernel

/-- 95_test_vectors.md 2.2 vector 10: `MOVD F6, F2`. -/
theorem test_movd_1 : after 0x00403033#32 ((start.writeF 2 0x3FF00000#32).writeF 3 0x00000001#32)
    (fun t => (t.readF 6, t.readF 7, t.pc)) = some (0x3FF00000#32, 0x00000001#32, 0x1004#32) := by
  decide +kernel

/-- 95_test_vectors.md 2.12 vector 17: `MOVD F1, F2`. -/
theorem test_movd_2 : after 0x00400833#32 ((start.writeF 2 0x3FF00000#32).writeF 3 0x00000000#32)
    (fun t => (t.ecr, t.edr, t.iar)) = some (1#32, 0x400833#32, 0x1000#32) := by
  decide +kernel

/-- 95_test_vectors.md 2.2 vector 12: `MOVFP2I R9, F1`. -/
theorem test_movfp2i_1 : after 0x00204834#32 (start.writeF 1 0x3F800000#32)
    (fun t => (t.readR 9, t.pc)) = some (0x3F800000#32, 0x1004#32) := by
  decide +kernel

/-- 95_test_vectors.md 2.2 vector 14: `MOVI2FP F2, R9`. -/
theorem test_movi2fp_1 : after 0x01201035#32 (start.writeR 9 0x00000007#32)
    (fun t => (t.readF 2, t.pc)) = some (0x00000007#32, 0x1004#32) := by
  decide +kernel

/-- 95_test_vectors.md 2.3 vector 1: `ADD R1, R2, R3`. -/
theorem test_add_1 : after 0x00430820#32 ((start.writeR 2 0x00000005#32).writeR 3 0xFFFFFFFD#32)
    (fun t => (t.readR 1, t.pc)) = some (0x00000002#32, 0x1004#32) := by
  decide +kernel

/-- 95_test_vectors.md 2.3 vector 2: `ADD R1, R2, R3`. -/
theorem test_add_2 : after 0x00430820#32 (((start.writeR 2 0x7FFFFFFF#32).writeR 3 0x00000001#32).writeR 1 0xAAAAAAAA#32)
    (fun t => (t.ecr, t.edr, t.iar, t.readR 1)) = some (7#32, 0x0#32, 0x1000#32, 0xAAAAAAAA#32) := by
  decide +kernel

/-- 95_test_vectors.md 2.3 vector 8: `ADDI R1, R2, #-3`. -/
theorem test_addi_1 : after 0x2041FFFD#32 (start.writeR 2 0x0000000A#32)
    (fun t => (t.readR 1, t.pc)) = some (0x00000007#32, 0x1004#32) := by
  decide +kernel

/-- 95_test_vectors.md 2.3 vector 9: `ADDI R1, R2, #1`. -/
theorem test_addi_2 : after 0x20410001#32 ((start.writeR 2 0x7FFFFFFF#32).writeR 1 0xAAAAAAAA#32)
    (fun t => (t.ecr, t.edr, t.iar, t.readR 1)) = some (7#32, 0x0#32, 0x1000#32, 0xAAAAAAAA#32) := by
  decide +kernel

/-- 95_test_vectors.md 2.3 vector 12: `ADDU R1, R2, R3`. -/
theorem test_addu_1 : after 0x00430821#32 ((start.writeR 2 0x7FFFFFFF#32).writeR 3 0x00000001#32)
    (fun t => (t.readR 1, t.pc)) = some (0x80000000#32, 0x1004#32) := by
  decide +kernel

/-- 95_test_vectors.md 2.3 vector 14: `ADDUI R1, R2, #0xFFFF`. -/
theorem test_addui_1 : after 0x2441FFFF#32 (start.writeR 2 0x00000001#32)
    (fun t => (t.readR 1, t.pc)) = some (0x00010000#32, 0x1004#32) := by
  decide +kernel

/-- 95_test_vectors.md 2.3 vector 16: `SUB R1, R2, R3`. -/
theorem test_sub_1 : after 0x00430822#32 ((start.writeR 2 0x00000003#32).writeR 3 0x00000005#32)
    (fun t => (t.readR 1, t.pc)) = some (0xFFFFFFFE#32, 0x1004#32) := by
  decide +kernel

/-- 95_test_vectors.md 2.3 vector 17: `SUB R1, R2, R3`. -/
theorem test_sub_2 : after 0x00430822#32 (((start.writeR 2 0x80000000#32).writeR 3 0x00000001#32).writeR 1 0xAAAAAAAA#32)
    (fun t => (t.ecr, t.edr, t.iar, t.readR 1)) = some (7#32, 0x0#32, 0x1000#32, 0xAAAAAAAA#32) := by
  decide +kernel

/-- 95_test_vectors.md 2.3 vector 20: `SUBI R1, R2, #3`. -/
theorem test_subi_1 : after 0x28410003#32 (start.writeR 2 0x0000000A#32)
    (fun t => (t.readR 1, t.pc)) = some (0x00000007#32, 0x1004#32) := by
  decide +kernel

/-- 95_test_vectors.md 2.3 vector 21: `SUBI R1, R2, #1`. -/
theorem test_subi_2 : after 0x28410001#32 ((start.writeR 2 0x80000000#32).writeR 1 0xAAAAAAAA#32)
    (fun t => (t.ecr, t.edr, t.iar, t.readR 1)) = some (7#32, 0x0#32, 0x1000#32, 0xAAAAAAAA#32) := by
  decide +kernel

/-- 95_test_vectors.md 2.3 vector 24: `SUBU R1, R2, R3`. -/
theorem test_subu_1 : after 0x00430823#32 ((start.writeR 2 0x00000000#32).writeR 3 0x00000001#32)
    (fun t => (t.readR 1, t.pc)) = some (0xFFFFFFFF#32, 0x1004#32) := by
  decide +kernel

/-- 95_test_vectors.md 2.3 vector 26: `SUBUI R1, R2, #0xFFFF`. -/
theorem test_subui_1 : after 0x2C41FFFF#32 (start.writeR 2 0x00010000#32)
    (fun t => (t.readR 1, t.pc)) = some (0x00000001#32, 0x1004#32) := by
  decide +kernel

/-- 95_test_vectors.md 2.4 vector 1: `MULT F0, F1, F2`. -/
theorem test_mult_1 : after 0x0422000E#32 ((start.writeF 1 0x00000007#32).writeF 2 0xFFFFFFFD#32)
    (fun t => (t.readF 0, t.pc)) = some (0xFFFFFFEB#32, 0x1004#32) := by
  decide +kernel

/-- 95_test_vectors.md 2.4 vector 2: `MULT F0, F1, F2`. -/
theorem test_mult_2 : after 0x0422000E#32 (((start.writeF 1 0x00010000#32).writeF 2 0x00008000#32).writeF 0 0xAAAAAAAA#32)
    (fun t => (t.ecr, t.edr, t.iar, t.readF 0)) = some (7#32, 0x0#32, 0x1000#32, 0xAAAAAAAA#32) := by
  decide +kernel

/-- 95_test_vectors.md 2.4 vector 7: `MULTU F0, F1, F2`. -/
theorem test_multu_1 : after 0x04220016#32 ((start.writeF 1 0xFFFFFFFF#32).writeF 2 0x00000002#32)
    (fun t => (t.readF 0, t.pc)) = some (0xFFFFFFFE#32, 0x1004#32) := by
  decide +kernel

/-- 95_test_vectors.md 2.4 vector 10: `DIV F0, F1, F2`. -/
theorem test_div_1 : after 0x0422000F#32 ((start.writeF 1 0x00000007#32).writeF 2 0x00000002#32)
    (fun t => (t.readF 0, t.pc)) = some (0x00000003#32, 0x1004#32) := by
  decide +kernel

/-- 95_test_vectors.md 2.4 vector 14: `DIV F0, F1, F2`. -/
theorem test_div_2 : after 0x0422000F#32 (((start.writeF 1 0x00000005#32).writeF 2 0x00000000#32).writeF 0 0xAAAAAAAA#32)
    (fun t => (t.ecr, t.edr, t.iar, t.readF 0)) = some (8#32, 0x0#32, 0x1000#32, 0xAAAAAAAA#32) := by
  decide +kernel

/-- 95_test_vectors.md 2.4 vector 19: `DIVU F0, F1, F2`. -/
theorem test_divu_1 : after 0x04220017#32 ((start.writeF 1 0xFFFFFFF9#32).writeF 2 0x00000002#32)
    (fun t => (t.readF 0, t.pc)) = some (0x7FFFFFFC#32, 0x1004#32) := by
  decide +kernel

/-- 95_test_vectors.md 2.4 vector 21: `DIVU F0, F1, F2`. -/
theorem test_divu_2 : after 0x04220017#32 (((start.writeF 1 0x00000005#32).writeF 2 0x00000000#32).writeF 0 0xAAAAAAAA#32)
    (fun t => (t.ecr, t.edr, t.iar, t.readF 0)) = some (8#32, 0x0#32, 0x1000#32, 0xAAAAAAAA#32) := by
  decide +kernel

/-- 95_test_vectors.md 2.5 vector 1: `AND R1, R2, R3`. -/
theorem test_and_1 : after 0x00430824#32 ((start.writeR 2 0xFF00FF00#32).writeR 3 0x0FF00FF0#32)
    (fun t => (t.readR 1, t.pc)) = some (0x0F000F00#32, 0x1004#32) := by
  decide +kernel

/-- 95_test_vectors.md 2.5 vector 2: `ANDI R1, R2, #0xFF00`. -/
theorem test_andi_1 : after 0x3041FF00#32 (start.writeR 2 0x12345678#32)
    (fun t => (t.readR 1, t.pc)) = some (0x00005600#32, 0x1004#32) := by
  decide +kernel

/-- 95_test_vectors.md 2.5 vector 4: `OR R1, R2, R3`. -/
theorem test_or_1 : after 0x00430825#32 ((start.writeR 2 0xFF00FF00#32).writeR 3 0x0FF00FF0#32)
    (fun t => (t.readR 1, t.pc)) = some (0xFFF0FFF0#32, 0x1004#32) := by
  decide +kernel

/-- 95_test_vectors.md 2.5 vector 5: `ORI R1, R1, #0x5678`. -/
theorem test_ori_1 : after 0x34215678#32 (start.writeR 1 0x12340000#32)
    (fun t => (t.readR 1, t.pc)) = some (0x12345678#32, 0x1004#32) := by
  decide +kernel

/-- 95_test_vectors.md 2.5 vector 7: `XOR R1, R2, R3`. -/
theorem test_xor_1 : after 0x00430826#32 ((start.writeR 2 0xFF00FF00#32).writeR 3 0x0FF00FF0#32)
    (fun t => (t.readR 1, t.pc)) = some (0xF0F0F0F0#32, 0x1004#32) := by
  decide +kernel

/-- 95_test_vectors.md 2.5 vector 9: `XORI R1, R2, #0xFFFF`. -/
theorem test_xori_1 : after 0x3841FFFF#32 (start.writeR 2 0x12345678#32)
    (fun t => (t.readR 1, t.pc)) = some (0x1234A987#32, 0x1004#32) := by
  decide +kernel

/-- 95_test_vectors.md 2.5 vector 10: `LHI R1, #0x1234`. -/
theorem test_lhi_1 : after 0x3C011234#32 (start.writeR 1 0xFFFFFFFF#32)
    (fun t => (t.readR 1, t.pc)) = some (0x12340000#32, 0x1004#32) := by
  decide +kernel

/-- 95_test_vectors.md 2.6 vector 2: `SLL R1, R2, R3`. -/
theorem test_sll_1 : after 0x00430804#32 ((start.writeR 2 0x80000001#32).writeR 3 0x00000020#32)
    (fun t => (t.readR 1, t.pc)) = some (0x80000001#32, 0x1004#32) := by
  decide +kernel

/-- 95_test_vectors.md 2.6 vector 6: `SRL R1, R2, R3`. -/
theorem test_srl_1 : after 0x00430806#32 ((start.writeR 2 0x80000010#32).writeR 3 0x00000024#32)
    (fun t => (t.readR 1, t.pc)) = some (0x08000001#32, 0x1004#32) := by
  decide +kernel

/-- 95_test_vectors.md 2.6 vector 8: `SRA R1, R2, R3`. -/
theorem test_sra_1 : after 0x00430807#32 ((start.writeR 2 0x80000010#32).writeR 3 0x00000004#32)
    (fun t => (t.readR 1, t.pc)) = some (0xF8000001#32, 0x1004#32) := by
  decide +kernel

/-- 95_test_vectors.md 2.6 vector 13: `SLLI R1, R2, #0xFFE1`. -/
theorem test_slli_1 : after 0x5041FFE1#32 (start.writeR 2 0x12345678#32)
    (fun t => (t.readR 1, t.pc)) = some (0x2468ACF0#32, 0x1004#32) := by
  decide +kernel

/-- 95_test_vectors.md 2.6 vector 14: `SRLI R1, R2, #31`. -/
theorem test_srli_1 : after 0x5841001F#32 (start.writeR 2 0x80000000#32)
    (fun t => (t.readR 1, t.pc)) = some (0x00000001#32, 0x1004#32) := by
  decide +kernel

/-- 95_test_vectors.md 2.6 vector 16: `SRAI R1, R2, #31`. -/
theorem test_srai_1 : after 0x5C41001F#32 (start.writeR 2 0x80000000#32)
    (fun t => (t.readR 1, t.pc)) = some (0xFFFFFFFF#32, 0x1004#32) := by
  decide +kernel

/-- 95_test_vectors.md 2.7 vector 1: `SLT R1, R2, R3`. -/
theorem test_slt_1 : after 0x0043082A#32 ((start.writeR 2 0xFFFFFFFF#32).writeR 3 0x00000001#32)
    (fun t => (t.readR 1, t.pc)) = some (0x00000001#32, 0x1004#32) := by
  decide +kernel

/-- 95_test_vectors.md 2.7 vector 2: `SGT R1, R2, R3`. -/
theorem test_sgt_1 : after 0x0043082B#32 ((start.writeR 2 0xFFFFFFFF#32).writeR 3 0x00000001#32)
    (fun t => (t.readR 1, t.pc)) = some (0x00000000#32, 0x1004#32) := by
  decide +kernel

/-- 95_test_vectors.md 2.7 vector 3: `SLE R1, R2, R3`. -/
theorem test_sle_1 : after 0x0043082C#32 ((start.writeR 2 0xFFFFFFFF#32).writeR 3 0x00000001#32)
    (fun t => (t.readR 1, t.pc)) = some (0x00000001#32, 0x1004#32) := by
  decide +kernel

/-- 95_test_vectors.md 2.7 vector 4: `SGE R1, R2, R3`. -/
theorem test_sge_1 : after 0x0043082D#32 ((start.writeR 2 0xFFFFFFFF#32).writeR 3 0x00000001#32)
    (fun t => (t.readR 1, t.pc)) = some (0x00000000#32, 0x1004#32) := by
  decide +kernel

/-- 95_test_vectors.md 2.7 vector 5: `SEQ R1, R2, R3`. -/
theorem test_seq_1 : after 0x00430828#32 ((start.writeR 2 0xFFFFFFFF#32).writeR 3 0x00000001#32)
    (fun t => (t.readR 1, t.pc)) = some (0x00000000#32, 0x1004#32) := by
  decide +kernel

/-- 95_test_vectors.md 2.7 vector 6: `SNE R1, R2, R3`. -/
theorem test_sne_1 : after 0x00430829#32 ((start.writeR 2 0xFFFFFFFF#32).writeR 3 0x00000001#32)
    (fun t => (t.readR 1, t.pc)) = some (0x00000001#32, 0x1004#32) := by
  decide +kernel

/-- 95_test_vectors.md 2.7 vector 17: `SLTI R1, R2, #-1`. -/
theorem test_slti_1 : after 0x6841FFFF#32 (start.writeR 2 0xFFFFFFFE#32)
    (fun t => (t.readR 1, t.pc)) = some (0x00000001#32, 0x1004#32) := by
  decide +kernel

/-- 95_test_vectors.md 2.7 vector 18: `SGTI R1, R2, #-1`. -/
theorem test_sgti_1 : after 0x6C41FFFF#32 (start.writeR 2 0xFFFFFFFE#32)
    (fun t => (t.readR 1, t.pc)) = some (0x00000000#32, 0x1004#32) := by
  decide +kernel

/-- 95_test_vectors.md 2.7 vector 19: `SLEI R1, R2, #-1`. -/
theorem test_slei_1 : after 0x7041FFFF#32 (start.writeR 2 0xFFFFFFFE#32)
    (fun t => (t.readR 1, t.pc)) = some (0x00000001#32, 0x1004#32) := by
  decide +kernel

/-- 95_test_vectors.md 2.7 vector 20: `SGEI R1, R2, #-1`. -/
theorem test_sgei_1 : after 0x7441FFFF#32 (start.writeR 2 0xFFFFFFFE#32)
    (fun t => (t.readR 1, t.pc)) = some (0x00000000#32, 0x1004#32) := by
  decide +kernel

/-- 95_test_vectors.md 2.7 vector 23: `SEQI R1, R2, #0xFFFF`. -/
theorem test_seqi_1 : after 0x6041FFFF#32 (start.writeR 2 0xFFFFFFFF#32)
    (fun t => (t.readR 1, t.pc)) = some (0x00000001#32, 0x1004#32) := by
  decide +kernel

/-- 95_test_vectors.md 2.7 vector 22: `SNEI R1, R2, #-1`. -/
theorem test_snei_1 : after 0x6441FFFF#32 (start.writeR 2 0xFFFFFFFE#32)
    (fun t => (t.readR 1, t.pc)) = some (0x00000001#32, 0x1004#32) := by
  decide +kernel

/-- 95_test_vectors.md 2.8 vector 1: `BEQZ R4, 8`. -/
theorem test_beqz_1 : after 0x10800008#32 ((start.writeR 4 0x00000000#32).jump 0x00000100#32)
    (fun t => t.pc) = some 0x10C#32 := by
  decide +kernel

/-- 95_test_vectors.md 2.8 vector 5: `BNEZ R4, -16`. -/
theorem test_bnez_1 : after 0x1480FFF0#32 ((start.writeR 4 0xFFFFFFFF#32).jump 0x00000110#32)
    (fun t => t.pc) = some 0x104#32 := by
  decide +kernel

/-- 95_test_vectors.md 2.8 vector 9: `BFPT 16`. -/
theorem test_bfpt_1 : after 0x18000010#32 ((start.writeC true).jump 0x00000200#32)
    (fun t => t.pc) = some 0x214#32 := by
  decide +kernel

/-- 95_test_vectors.md 2.8 vector 11: `BFPF 16`. -/
theorem test_bfpf_1 : after 0x1C000010#32 ((start.writeC true).jump 0x00000200#32)
    (fun t => t.pc) = some 0x204#32 := by
  decide +kernel

/-- 95_test_vectors.md 2.8 vector 16: `J -8`. -/
theorem test_j_1 : after 0x0BFFFFF8#32 start
    (fun t => t.pc) = some 0xFFC#32 := by
  decide +kernel

/-- 95_test_vectors.md 2.8 vector 20: `JR R31`. -/
theorem test_jr_1 : after 0x4BE00000#32 (start.writeR 31 0x00001008#32)
    (fun t => t.pc) = some 0x1008#32 := by
  decide +kernel

/-- 95_test_vectors.md 2.8 vector 23: `JAL 0xFC`. -/
theorem test_jal_1 : after 0x0C0000FC#32 start
    (fun t => (t.readR 31, t.pc)) = some (0x00001004#32, 0x1100#32) := by
  decide +kernel

/-- 95_test_vectors.md 2.8 vector 26: `JALR R31`. -/
theorem test_jalr_1 : after 0x4FE00000#32 ((start.writeR 31 0x00003000#32).jump 0x00002000#32)
    (fun t => (t.readR 31, t.pc)) = some (0x00002004#32, 0x3000#32) := by
  decide +kernel

/-- 95_test_vectors.md 2.8 vector 28: `TRAP #0x3FFFFFF`. -/
theorem test_trap_1 : after 0x47FFFFFF#32 (start.jump 0x00000400#32)
    (fun t => (t.ecr, t.edr, t.iar)) = some (9#32, 0x3FFFFFF#32, 0x404#32) := by
  decide +kernel

/-- 95_test_vectors.md 2.8 vector 32: `RFE`. -/
theorem test_rfe_1 : after 0x40000000#32 ({ (start.writeIar 0x00001002#32) with mode := .system }.jump 0x00000400#32)
    (fun t => (t.mode, t.pc)) = some (.user, 0x1002#32) := by
  decide +kernel

/-- 95_test_vectors.md 2.8 vector 30: `RFE`. -/
theorem test_rfe_2 : after 0x40000000#32 (start.jump 0x00000400#32)
    (fun t => (t.ecr, t.edr, t.iar)) = some (2#32, 0x40000000#32, 0x400#32) := by
  decide +kernel

/-- 95_test_vectors.md 2.9 vector 25: `ADDD F0, F2, F4`. -/
theorem test_addd_1 : after 0x04440004#32 ((((start.writeF 2 0x3FB99999#32).writeF 3 0x9999999A#32).writeF 4 0x3FC99999#32).writeF 5 0x9999999A#32)
    (fun t => (t.readF 0, t.readF 1, t.pc)) = some (0x3FD33333#32, 0x33333334#32, 0x1004#32) := by
  decide +kernel

/-- 95_test_vectors.md 2.9 vector 5: `ADDF F0, F1, F2`. -/
theorem test_addf_1 : after 0x04220000#32 ((start.writeF 1 0x4B800000#32).writeF 2 0x3F800000#32)
    (fun t => (t.readF 0, t.pc)) = some (0x4B800000#32, 0x1004#32) := by
  decide +kernel

/-- 95_test_vectors.md 2.9 vector 27: `SUBD F0, F2, F4`. -/
theorem test_subd_1 : after 0x04440005#32 ((((start.writeF 2 0x3FF00000#32).writeF 3 0x00000000#32).writeF 4 0x40000000#32).writeF 5 0x00000000#32)
    (fun t => (t.readF 0, t.readF 1, t.pc)) = some (0xBFF00000#32, 0x00000000#32, 0x1004#32) := by
  decide +kernel

/-- 95_test_vectors.md 2.9 vector 10: `SUBF F0, F1, F2`. -/
theorem test_subf_1 : after 0x04220001#32 ((start.writeF 1 0x00800000#32).writeF 2 0x00000001#32)
    (fun t => (t.readF 0, t.pc)) = some (0x007FFFFF#32, 0x1004#32) := by
  decide +kernel

/-- 95_test_vectors.md 2.9 vector 28: `MULTD F0, F2, F4`. -/
theorem test_multd_1 : after 0x04440006#32 ((((start.writeF 2 0x40000000#32).writeF 3 0x00000000#32).writeF 4 0x40080000#32).writeF 5 0x00000000#32)
    (fun t => (t.readF 0, t.readF 1, t.pc)) = some (0x40180000#32, 0x00000000#32, 0x1004#32) := by
  decide +kernel

/-- 95_test_vectors.md 2.9 vector 12: `MULTF F0, F1, F2`. -/
theorem test_multf_1 : after 0x04220002#32 ((start.writeF 1 0xC0000000#32).writeF 2 0x00000000#32)
    (fun t => (t.readF 0, t.pc)) = some (0x80000000#32, 0x1004#32) := by
  decide +kernel

/-- 95_test_vectors.md 2.9 vector 30: `DIVD F0, F2, F4`. -/
theorem test_divd_1 : after 0x04440007#32 ((((start.writeF 2 0x3FF00000#32).writeF 3 0x00000000#32).writeF 4 0x40080000#32).writeF 5 0x00000000#32)
    (fun t => (t.readF 0, t.readF 1, t.pc)) = some (0x3FD55555#32, 0x55555555#32, 0x1004#32) := by
  decide +kernel

/-- 95_test_vectors.md 2.9 vector 16: `DIVF F0, F1, F2`. -/
theorem test_divf_1 : after 0x04220003#32 ((start.writeF 1 0x3F800000#32).writeF 2 0x40400000#32)
    (fun t => (t.readF 0, t.pc)) = some (0x3EAAAAAB#32, 0x1004#32) := by
  decide +kernel

/-- 95_test_vectors.md 2.10 vector 1: `CVTF2D F0, F3`. -/
theorem test_cvtf2d_1 : after 0x04600008#32 (start.writeF 3 0x3FC00000#32)
    (fun t => (t.readF 0, t.readF 1, t.pc)) = some (0x3FF80000#32, 0x00000000#32, 0x1004#32) := by
  decide +kernel

/-- 95_test_vectors.md 2.12 vector 18: `CVTF2D F1, F2`. -/
theorem test_cvtf2d_2 : after 0x04400808#32 (start.writeF 2 0x3F800000#32)
    (fun t => (t.ecr, t.edr, t.iar)) = some (1#32, 0x4400808#32, 0x1000#32) := by
  decide +kernel

/-- 95_test_vectors.md 2.10 vector 5: `CVTF2I F0, F1`. -/
theorem test_cvtf2i_1 : after 0x04200009#32 (start.writeF 1 0xC0300000#32)
    (fun t => (t.readF 0, t.pc)) = some (0xFFFFFFFE#32, 0x1004#32) := by
  decide +kernel

/-- 95_test_vectors.md 2.10 vector 16: `CVTD2F F0, F2`. -/
theorem test_cvtd2f_1 : after 0x0440000A#32 ((start.writeF 2 0x3FB99999#32).writeF 3 0x9999999A#32)
    (fun t => (t.readF 0, t.pc)) = some (0x3DCCCCCD#32, 0x1004#32) := by
  decide +kernel

/-- 95_test_vectors.md 2.10 vector 21: `CVTD2I F0, F2`. -/
theorem test_cvtd2i_1 : after 0x0440000B#32 ((start.writeF 2 0x40060000#32).writeF 3 0x00000000#32)
    (fun t => (t.readF 0, t.pc)) = some (0x00000002#32, 0x1004#32) := by
  decide +kernel

/-- 95_test_vectors.md 2.12 vector 19: `CVTD2I F1, F3`. -/
theorem test_cvtd2i_2 : after 0x0460080B#32 ((start.writeF 3 0x00000000#32).writeF 4 0x00000000#32)
    (fun t => (t.ecr, t.edr, t.iar)) = some (1#32, 0x460080B#32, 0x1000#32) := by
  decide +kernel

/-- 95_test_vectors.md 2.10 vector 28: `CVTI2F F0, F1`. -/
theorem test_cvti2f_1 : after 0x0420000C#32 (start.writeF 1 0x01000001#32)
    (fun t => (t.readF 0, t.pc)) = some (0x4B800000#32, 0x1004#32) := by
  decide +kernel

/-- 95_test_vectors.md 2.10 vector 34: `CVTI2D F0, F3`. -/
theorem test_cvti2d_1 : after 0x0460000D#32 (start.writeF 3 0xFFFFFFFF#32)
    (fun t => (t.readF 0, t.readF 1, t.pc)) = some (0xBFF00000#32, 0x00000000#32, 0x1004#32) := by
  decide +kernel

/-- 95_test_vectors.md 2.11 vector 26: `LTD F2, F4`. -/
theorem test_ltd_1 : after 0x0444001A#32 (((((start.writeF 2 0x3FF00000#32).writeF 3 0x00000000#32).writeF 4 0x40000000#32).writeF 5 0x00000000#32).writeC false)
    (fun t => (t.fpsrC, t.pc)) = some (true, 0x1004#32) := by
  decide +kernel

/-- 95_test_vectors.md 2.12 vector 20: `LTD F1, F2`. -/
theorem test_ltd_2 : after 0x0422001A#32 (((start.writeF 1 0x00000000#32).writeF 2 0x00000000#32).writeF 3 0x00000000#32)
    (fun t => (t.ecr, t.edr, t.iar)) = some (1#32, 0x422001A#32, 0x1000#32) := by
  decide +kernel

/-- 95_test_vectors.md 2.11 vector 27: `GTD F2, F4`. -/
theorem test_gtd_1 : after 0x0444001B#32 (((((start.writeF 2 0x3FF00000#32).writeF 3 0x00000000#32).writeF 4 0x40000000#32).writeF 5 0x00000000#32).writeC false)
    (fun t => t.pc) = some 0x1004#32 := by
  decide +kernel

/-- 95_test_vectors.md 2.11 vector 28: `LED F2, F4`. -/
theorem test_led_1 : after 0x0444001C#32 (((((start.writeF 2 0x3FF00000#32).writeF 3 0x00000000#32).writeF 4 0x40000000#32).writeF 5 0x00000000#32).writeC false)
    (fun t => (t.fpsrC, t.pc)) = some (true, 0x1004#32) := by
  decide +kernel

/-- 95_test_vectors.md 2.11 vector 29: `GED F2, F4`. -/
theorem test_ged_1 : after 0x0444001D#32 (((((start.writeF 2 0x3FF00000#32).writeF 3 0x00000000#32).writeF 4 0x40000000#32).writeF 5 0x00000000#32).writeC false)
    (fun t => t.pc) = some 0x1004#32 := by
  decide +kernel

/-- 95_test_vectors.md 2.11 vector 30: `EQD F2, F4`. -/
theorem test_eqd_1 : after 0x04440018#32 (((((start.writeF 2 0x3FF00000#32).writeF 3 0x00000000#32).writeF 4 0x40000000#32).writeF 5 0x00000000#32).writeC false)
    (fun t => t.pc) = some 0x1004#32 := by
  decide +kernel

/-- 95_test_vectors.md 2.11 vector 31: `NED F2, F4`. -/
theorem test_ned_1 : after 0x04440019#32 (((((start.writeF 2 0x3FF00000#32).writeF 3 0x00000000#32).writeF 4 0x40000000#32).writeF 5 0x00000000#32).writeC false)
    (fun t => (t.fpsrC, t.pc)) = some (true, 0x1004#32) := by
  decide +kernel

/-- 95_test_vectors.md 2.11 vector 1: `LTF F1, F2`. -/
theorem test_ltf_1 : after 0x04220012#32 (((start.writeF 1 0x3F800000#32).writeF 2 0x40000000#32).writeC false)
    (fun t => (t.fpsrC, t.pc)) = some (true, 0x1004#32) := by
  decide +kernel

/-- 95_test_vectors.md 2.11 vector 2: `GTF F1, F2`. -/
theorem test_gtf_1 : after 0x04220013#32 (((start.writeF 1 0x3F800000#32).writeF 2 0x40000000#32).writeC false)
    (fun t => t.pc) = some 0x1004#32 := by
  decide +kernel

/-- 95_test_vectors.md 2.11 vector 3: `LEF F1, F2`. -/
theorem test_lef_1 : after 0x04220014#32 (((start.writeF 1 0x3F800000#32).writeF 2 0x40000000#32).writeC false)
    (fun t => (t.fpsrC, t.pc)) = some (true, 0x1004#32) := by
  decide +kernel

/-- 95_test_vectors.md 2.11 vector 4: `GEF F1, F2`. -/
theorem test_gef_1 : after 0x04220015#32 (((start.writeF 1 0x3F800000#32).writeF 2 0x40000000#32).writeC false)
    (fun t => t.pc) = some 0x1004#32 := by
  decide +kernel

/-- 95_test_vectors.md 2.11 vector 5: `EQF F1, F2`. -/
theorem test_eqf_1 : after 0x04220010#32 (((start.writeF 1 0x3F800000#32).writeF 2 0x40000000#32).writeC false)
    (fun t => t.pc) = some 0x1004#32 := by
  decide +kernel

/-- 95_test_vectors.md 2.11 vector 6: `NEF F1, F2`. -/
theorem test_nef_1 : after 0x04220011#32 (((start.writeF 1 0x3F800000#32).writeF 2 0x40000000#32).writeC false)
    (fun t => (t.fpsrC, t.pc)) = some (true, 0x1004#32) := by
  decide +kernel

/-- A value the spec leaves to a draw is not the model's: the NaN's fixed bits alone are known (95_test_vectors.md 2.9
vector 20). -/
theorem test_nan_is_drawn (s : State) : (quietNaN32 (Config.nanDrawSp s.draws)).getLsbD 22 = true := by
  simp [quietNaN32]

/-! ## Reset and memory -/

theorem test_reset_memory_wf : State.reset.mem.wf := by decide

theorem test_start_invariant : start.Inv := by decide +kernel

/-- Reset is a multiple of 4 in `system` mode, and an instruction placed there is the first to run. -/
theorem test_reset_runs_first_instruction :
    after 0x20018000#32 State.reset (fun t => (t.readR 1, t.pc, t.mode)) = some (0xFFFF8000#32, 4#32, .system) := by
  decide +kernel

/-- A store then a fetch of its bytes is refused (20_memory.md R45). -/
theorem test_stored_code_refused :
    ((start.storeBytes 0x1000 4 0x00000020#32).fetch 0x1000#32 matches .refuses (.storedCode 0x1000#32)) = true := by
  decide +kernel

/-- 60_exceptions.md R223: a TRAP in `user` mode is `Trapped(n, pc + 4)`. -/
theorem test_userOutcome_trap : (userOutcome (start.withFetchWord 32 0x44000005) matches .trapped 5#32 0x1004#32) = true := by
  decide +kernel

/-- The platform's vector decides where control goes when it has an entry (60_exceptions.md R215). -/
theorem test_vector_entry :
    after 0x44000005#32 { start with platform := ⟨[⟨0, 0x10000⟩], [⟨.trap, some 5#32, 0x80#32⟩]⟩ } (·.pc) = some 0x80#32 := by
  decide +kernel

/-! ## Witnesses: states and operands that meet the hypotheses of a statement, one for each of its clauses -/

/-- `start` with all 2^32 bytes RAM, so that edges of the address space can be reached. -/
def wide : State := { start with platform := Platform.reset }

/-- `start` in `system` mode. -/
def inSystem : State := { start with mode := .system }

/-- `start` with R2 = 0x2000, the base of the loads and stores. -/
def based : State := start.writeR 2 0x2000#32

/-- `start` with NOP at `pc`. -/
def atNop : State := start.withFetchWord 32 0x20

theorem witness_DecodeOfEncode :
    (Instr.divd 30 0 2).wellFormed = true ∧ (Instr.trap 0x3FFFFFF).wellFormed = true ∧ (Instr.lb 31 31 0xFFFF).wellFormed = true := by
  decide

theorem witness_EncodeOfDecode :
    decode 0x47FFFFFF#32 = .ok (.trap 0x3FFFFFF) ∧ decode 0x00000020#32 = .ok (.add 0 0 0) := by
  decide +kernel

theorem witness_NoWordMatchesTwoRows :
    ∃ q, opcodeTable[18]? = some q ∧ q.matchesWord 0x00000020#32 = true := ⟨_, rfl, by decide +kernel⟩

theorem witness_OddPairIsReserved : (Instr.ld 31 0 0).wellFormed = false ∧ (Instr.ned 0 1).wellFormed = false := by decide

theorem witness_StepRunsDecoded : FetchesWord atNop 0x20#32 ∧ decode 0x20#32 = .ok (.add 0 0 0) := by
  unfold FetchesWord
  decide +kernel

/-- At the last word of the address space too. -/
theorem witness_StepRunsDecoded_edge :
    FetchesWord ((wide.jump 0xFFFFFFFC#32).withFetchWord 32 0x40000000) 0x40000000#32 ∧ decode 0x40000000#32 = .ok .rfe := by
  unfold FetchesWord
  decide +kernel

/-- The clauses in order: misaligned by 1 and 3; the first absent word; a stored byte, the first and the last of four; a
word held. -/
theorem witness_FetchFollowsItsOrder :
    (0x1001#32).toNat % 4 ≠ 0 ∧ (0xFFFFFFFF#32).toNat % 4 ≠ 0 ∧
    ((0x10000#32).toNat % 4 = 0 ∧ ∃ k < 4, start.platform.isRam ((0x10000#32).toNat + k) = false) ∧
    ((∀ k < 4, start.platform.isRam ((0xFFFC#32).toNat + k) = true) ∧
      (∃ k < 4, (0xFFFC#32).toNat + k ∈ (start.storeBytes 0xFFFC 1 0#8).stored) ∧
      ∃ k < 4, (0xFFFC#32).toNat + k ∈ (start.storeBytes 0xFFFF 1 0#8).stored) ∧
    ((∀ k < 4, start.platform.isRam ((0x2000#32).toNat + k) = true) ∧ (∀ k < 4, (0x2000#32).toNat + k ∉ start.stored) ∧
      HoldsValue start 0x2000#32 4 0x80FF7F01#32) := by
  unfold HoldsValue
  decide +kernel

theorem witness_StepTakesFetchExceptions :
    (start.jump 0x1002#32).pc.toNat % 4 ≠ 0 ∧
    ((start.jump 0x10000#32).pc.toNat % 4 = 0 ∧ start.platform.allRam (start.jump 0x10000#32).pc.toNat 4 = false) ∧
    (start.platform.allRam start.pc.toNat 4 = true ∧
      ∃ k < 4, start.pc.toNat + k ∈ (start.storeBytes 0x1003 1 0#8).stored) := by
  decide +kernel

theorem witness_ReservedWordRaises :
    FetchesWord (start.withFetchWord 32 0) 0#32 ∧ ∀ i : Instr, decode 0#32 ≠ .ok i := by
  have h : decode 0#32 = .error (.reservedEncoding 0#32) := by decide +kernel
  refine ⟨by unfold FetchesWord; decide +kernel, fun i => by rw [h]; exact fun e => nomatch e⟩

/-- A byte, a halfword of which the second byte has no value, a word, a pair, and an instruction. -/
theorem witness_UnwrittenByteStops :
    let s := { start with mem := [(0x3000, 1)] }
    (Accessible s 0xFFFF#32 1 ∧ ∃ k < 1, s.readByte (0xFFFF#32 + BitVec.ofNat 32 k) = none) ∧
    (Accessible s 0x3000#32 2 ∧ ∃ k < 2, s.readByte (0x3000#32 + BitVec.ofNat 32 k) = none) ∧
    (Accessible s 0x3000#32 4 ∧ ∃ k < 4, s.readByte (0x3000#32 + BitVec.ofNat 32 k) = none) ∧
    (Accessible s 0x3000#32 8 ∧ ∃ k < 8, s.readByte (0x3000#32 + BitVec.ofNat 32 k) = none) ∧
    (Accessible s s.pc 4 ∧ (∀ k < 4, s.pc.toNat + k ∉ s.stored) ∧ ∃ k < 4, s.readByte (s.pc + BitVec.ofNat 32 k) = none) := by
  unfold Accessible
  decide +kernel

theorem witness_RfeReturnsOrTraps : inSystem.mode = .system ∧ start.mode = .user := by decide

/-- Special register numbers 4 and 31, 1 and 3 in `user` mode, 0, and 1 to 3 in `system` mode. -/
theorem witness_Movi2sWritesSpecial :
    3 < (4#5).toNat ∧ 3 < (31#5).toNat ∧ (1 ≤ (1#5).toNat ∧ (1#5).toNat ≤ 3 ∧ start.mode = .user) ∧
    (1 ≤ (3#5).toNat ∧ (3#5).toNat ≤ 3) ∧ inSystem.mode = .system := by
  decide

theorem witness_Movs2iReadsSpecial :
    3 < (4#5).toNat ∧ 3 < (31#5).toNat ∧ (1 ≤ (2#5).toNat ∧ (2#5).toNat ≤ 3 ∧ start.mode = .user) ∧
    inSystem.mode = .system := by
  decide

/-- An absent byte, the first above RAM; a byte held, at the lowest listed address and with a negative displacement. -/
theorem witness_LoadByteResult :
    start.platform.isRam ((start.writeR 2 0xFFFF#32).readR 2 + (1#16).signExtend 32).toNat = false ∧
    (start.platform.isRam (based.readR 2 + (0#16).signExtend 32).toNat = true ∧
      based.readByte (based.readR 2 + (0#16).signExtend 32) = some 0x80#8) ∧
    (start.writeR 2 0x2008#32).readByte ((start.writeR 2 0x2008#32).readR 2 + (0xFFFF#16).signExtend 32) = some 0x78#8 := by
  decide +kernel

theorem witness_LoadHalfwordResult :
    (based.readR 2 + (1#16).signExtend 32).toNat % 2 ≠ 0 ∧
    ((start.readR 0 + (0xFFFE#16).signExtend 32).toNat % 2 = 0 ∧
      start.platform.allRam (start.readR 0 + (0xFFFE#16).signExtend 32).toNat 2 = false) ∧
    (Accessible based (based.readR 2 + (2#16).signExtend 32) 2 ∧
      HoldsValue based (based.readR 2 + (2#16).signExtend 32) 2 0x7F01#16) := by
  unfold Accessible HoldsValue
  decide +kernel

theorem witness_LoadWordResult :
    (based.readR 2 + (3#16).signExtend 32).toNat % 4 ≠ 0 ∧
    ((start.readR 0 + (0xFFFC#16).signExtend 32).toNat % 4 = 0 ∧
      start.platform.allRam (start.readR 0 + (0xFFFC#16).signExtend 32).toNat 4 = false) ∧
    (Accessible based (based.readR 2 + (4#16).signExtend 32) 4 ∧
      HoldsValue based (based.readR 2 + (4#16).signExtend 32) 4 0x12345678#32) := by
  unfold Accessible HoldsValue
  decide +kernel

/-- An odd and an even register; misaligned by 4; absent; held. -/
theorem witness_LoadDoubleResult :
    (31#5).getLsbD 0 = true ∧ (30#5).getLsbD 0 = false ∧ (based.readR 2 + (4#16).signExtend 32).toNat % 8 ≠ 0 ∧
    ((start.readR 0 + (0xFFF8#16).signExtend 32).toNat % 8 = 0 ∧
      start.platform.allRam (start.readR 0 + (0xFFF8#16).signExtend 32).toNat 8 = false) ∧
    (Accessible based (based.readR 2 + (0#16).signExtend 32) 8 ∧
      HoldsValue based (based.readR 2 + (0#16).signExtend 32) 8 0x80FF7F0112345678#64) := by
  unfold Accessible HoldsValue
  decide +kernel

/-- Accessible and absent bytes; halfwords and words misaligned, absent and accessible, at the edges of the RAM. -/
theorem witness_StoreGprResult :
    Accessible start (start.readR 0 + (0#16).signExtend 32) 1 ∧
    start.platform.allRam (start.readR 0 + (0xFFFF#16).signExtend 32).toNat 1 = false ∧
    (based.readR 2 + (1#16).signExtend 32).toNat % 2 ≠ 0 ∧
    start.platform.allRam (start.readR 0 + (0xFFFE#16).signExtend 32).toNat 2 = false ∧
    Accessible (start.writeR 2 0xFFFE#32) ((start.writeR 2 0xFFFE#32).readR 2 + (0#16).signExtend 32) 2 ∧
    (based.readR 2 + (2#16).signExtend 32).toNat % 4 ≠ 0 ∧
    start.platform.allRam (start.readR 0 + (0xFFFC#16).signExtend 32).toNat 4 = false ∧
    Accessible wide (wide.readR 0 + (0xFFFC#16).signExtend 32) 4 := by
  unfold Accessible
  decide +kernel

theorem witness_StoreFprResult :
    (based.readR 2 + (2#16).signExtend 32).toNat % 4 ≠ 0 ∧
    start.platform.allRam (start.readR 0 + (0xFFFC#16).signExtend 32).toNat 4 = false ∧
    Accessible based (based.readR 2 + (4#16).signExtend 32) 4 ∧
    (1#5).getLsbD 0 = true ∧ (30#5).getLsbD 0 = false ∧ (based.readR 2 + (4#16).signExtend 32).toNat % 8 ≠ 0 ∧
    start.platform.allRam (start.readR 0 + (0xFFF8#16).signExtend 32).toNat 8 = false ∧
    Accessible wide (wide.readR 0 + (0xFFF8#16).signExtend 32) 8 := by
  unfold Accessible
  decide +kernel

/-- After an SW of 0x11223344 at 0x2000 and after an SD there, loads through the same base reach each place named. -/
theorem witness_MixedWidthLoadsSeeStoredBytes :
    let s := based.writeR 3 0x11223344#32
    let a := s.readR 2 + (0#16).signExtend 32
    (Accessible s a 4 ∧ s.readR 3 = 0x11223344#32 ∧ Accessible s a 8 ∧ (30#5).getLsbD 0 = false) ∧
    (∃ t, exec (.sw 3 2 0) s = .next t ∧ (t.readR 2 + (0#16).signExtend 32 == a && t.readR 2 + (3#16).signExtend 32 == a + 3#32 &&
      t.readR 2 + (2#16).signExtend 32 == a + 2#32) = true) ∧
    ∃ t, exec (.sd 30 2 0) s = .next t ∧ (t.readR 2 + (0#16).signExtend 32 == a && t.readR 2 + (4#16).signExtend 32 == a + 4#32) = true := by
  refine ⟨?_, exists_next (p := fun t => _) ?_, exists_next (p := fun t => _) ?_⟩
  · unfold Accessible
    decide +kernel
  · decide +kernel
  · decide +kernel

/-- One odd register suffices; both even. -/
theorem witness_MovePairResult :
    ((31#5).getLsbD 0 = true ∨ (0#5).getLsbD 0 = true) ∧ ((0#5).getLsbD 0 = true ∨ (1#5).getLsbD 0 = true) ∧
    ((0#5).getLsbD 0 = false ∧ (30#5).getLsbD 0 = false) := by
  decide

theorem witness_OverflowFormsAgree :
    (0xFFFFFFFF#32).toInt ≠ 0 ∧ addOverflows 0x7FFFFFFE#32 1#32 = false ∧ subOverflows 0x80000001#32 1#32 = false ∧
    multOverflows 0x00010000#32 0xFFFF8000#32 = false ∧ divOverflows 0x80000001#32 0xFFFFFFFF#32 = false ∧
    addOverflows 0x7FFFFFFF#32 1#32 = true ∧ subOverflows 0x80000000#32 1#32 = true ∧
    multOverflows 0x00010000#32 0x00008000#32 = true ∧ divOverflows 0x80000000#32 0xFFFFFFFF#32 = true := by
  decide

/-- R2 and R3 whose sum, then whose difference, is one past each end of the range and at each end of it. -/
theorem witness_AddSubResult :
    let s (a b : Word) := (start.writeR 2 a).writeR 3 b
    let sum (a b : Word) := ((s a b).readR 2).toInt + ((s a b).readR 3).toInt
    let difference (a b : Word) := ((s a b).readR 2).toInt - ((s a b).readR 3).toInt
    sum 0x7FFFFFFF#32 1#32 = 2 ^ 31 ∧ sum 0x80000000#32 0xFFFFFFFF#32 = -2 ^ 31 - 1 ∧ sum 0x7FFFFFFE#32 1#32 = 2 ^ 31 - 1 ∧
    sum 0x80000001#32 0xFFFFFFFF#32 = -2 ^ 31 ∧ difference 0#32 0x80000000#32 = 2 ^ 31 ∧
    difference 0x80000000#32 1#32 = -2 ^ 31 - 1 ∧ difference 0xFFFFFFFF#32 0x80000000#32 = 2 ^ 31 - 1 ∧
    difference 0x80000001#32 1#32 = -2 ^ 31 := by
  decide +kernel

/-- Both ends of the range, inside and one past, for a sum and a difference of a register and an immediate. -/
theorem witness_AddSubImmediateResult :
    let r (a : Word) := (start.writeR 2 a).readR 2
    2 ^ 31 - 1 < (r 0x7FFFFFFF#32).toInt + (1#16).toInt ∧ (r 0x80000000#32).toInt + (0xFFFF#16).toInt < -2 ^ 31 ∧
    (-2 ^ 31 ≤ (r 0x7FFFFFFE#32).toInt + (1#16).toInt ∧ (r 0x7FFFFFFE#32).toInt + (1#16).toInt ≤ 2 ^ 31 - 1) ∧
    (-2 ^ 31 ≤ (r 0x80000001#32).toInt + (0xFFFF#16).toInt ∧ (r 0x80000001#32).toInt + (0xFFFF#16).toInt ≤ 2 ^ 31 - 1) ∧
    2 ^ 31 - 1 < (r 0x7FFF8000#32).toInt - (0x8000#16).toInt ∧ (r 0x80000000#32).toInt - (1#16).toInt < -2 ^ 31 ∧
    (-2 ^ 31 ≤ (r 0x7FFF7FFF#32).toInt - (0x8000#16).toInt ∧ (r 0x7FFF7FFF#32).toInt - (0x8000#16).toInt ≤ 2 ^ 31 - 1) ∧
    (-2 ^ 31 ≤ (r 0x80000001#32).toInt - (1#16).toInt ∧ (r 0x80000001#32).toInt - (1#16).toInt ≤ 2 ^ 31 - 1) := by
  decide +kernel

/-- Products one past the range, and at both ends of it. -/
theorem witness_MultiplyResult :
    let s (a b : Word) := (start.writeF 1 a).writeF 2 b
    let product (a b : Word) := ((s a b).readF 1).toInt * ((s a b).readF 2).toInt
    2 ^ 31 - 1 < product 0x10000#32 0x8000#32 ∧ product 0x10001#32 0xFFFF8000#32 < -2 ^ 31 ∧
    (-2 ^ 31 ≤ product 0x10000#32 0xFFFF8000#32 ∧ product 0x10000#32 0xFFFF8000#32 ≤ 2 ^ 31 - 1) ∧
    product 0x7FFFFFFF#32 1#32 ≤ 2 ^ 31 - 1 := by
  decide +kernel

/-- A zero divisor; the one overflow; its neighbours in the dividend and in the divisor, which divide. -/
theorem witness_DivideResult :
    let n (a b : Word) := ((start.writeF 1 a).writeF 2 b).readF 1
    let d (a b : Word) := ((start.writeF 1 a).writeF 2 b).readF 2
    let overflows (a b : Word) := (n a b).toInt = -2 ^ 31 ∧ (d a b).toInt = -1
    d 5#32 0#32 = 0#32 ∧ overflows 0x80000000#32 0xFFFFFFFF#32 ∧
    (d 0x80000001#32 0xFFFFFFFF#32 ≠ 0#32 ∧ ¬ overflows 0x80000001#32 0xFFFFFFFF#32) ∧
    (d 0x80000000#32 1#32 ≠ 0#32 ∧ ¬ overflows 0x80000000#32 1#32) := by
  decide +kernel

theorem witness_PseudoInstructionsWork : (31#5 : GReg) ≠ 0#5 := by decide

/-- The four operations with a number, rounded, and with a NaN as their result. -/
theorem witness_SinglePrecisionResult :
    let one := f32 ((start.writeF 1 0x3F800000#32).readF 1)
    let inf := f32 ((start.writeF 1 0x7F800000#32).readF 1)
    let zero := f32 ((start.writeF 1 0x80000000#32).readF 1)
    (rnd32 (one.add one) = some 0x40000000#32 ∧ rnd32 (one.sub one) = some 0#32 ∧ rnd32 (one.mul zero) = some 0x80000000#32 ∧
      rnd32 (one.div zero) = some 0xFF800000#32) ∧
    inf.sub inf = .nan ∧ zero.mul inf = .nan ∧ zero.div zero = .nan ∧ (f32 ((start.writeF 1 0x7F800001#32).readF 1)).add one = .nan := by
  decide +kernel

theorem witness_DoublePrecisionResult :
    let pair (v : DWord) := (start.writeD 2 v).readF 2 ++ (start.writeD 2 v).readF (2 + 1#5)
    let one := f64 (pair 0x3FF0000000000000#64)
    let inf := f64 (pair 0x7FF0000000000000#64)
    let zero := f64 (pair 0x8000000000000000#64)
    ((1#5).getLsbD 0 = true ∨ (0#5).getLsbD 0 = true ∨ (0#5).getLsbD 0 = true) ∧
    ((0#5).getLsbD 0 = false ∧ (30#5).getLsbD 0 = false) ∧
    (rnd64 (one.add one) = some 0x4000000000000000#64 ∧ rnd64 (one.sub one) = some 0#64 ∧
      rnd64 (one.mul zero) = some 0x8000000000000000#64 ∧ rnd64 (one.div zero) = some 0xFFF0000000000000#64) ∧
    inf.sub inf = .nan ∧ zero.mul inf = .nan ∧ zero.div zero = .nan ∧ (f64 (pair 0x7FF0000000000001#64)).add one = .nan := by
  decide +kernel

/-- Positive denominators; a zero sum of opposite signs, a zero difference of like ones; divisors zero and not. -/
theorem witness_ExactOperationsAreRational :
    let x := FloatValue.finite false 1 2
    let y := FloatValue.finite true 2 4
    (0 < 2 ∧ 0 < 4) ∧ x.toRat + y.toRat = 0 ∧ y.toRat - y.toRat = 0 ∧ (2 : Nat) ≠ 0 ∧ x.div (.finite true 0 4) = .infinity true ∧
    (1 : Nat) ≠ 0 ∧ (FloatValue.infinity true).mul x = .infinity true := by
  refine ⟨by decide, ?_, sub_self _, by decide, by decide, by decide, by decide⟩
  norm_num [FloatValue.toRat]

/-- Zero, the smallest subnormal, a tie between two neighbours and the number from which infinity is given, against a
pattern at each end of the format. -/
theorem witness_RoundingIsNearestEven :
    (0 < 1 ∧ 0 ≤ FloatFormat.sp.infinityBits) ∧ rnd32 (.finite true 1 (2 ^ 149)) = some 0x80000001#32 ∧
    rnd32 (.finite true 1 (2 ^ 150)) = some 0x80000000#32 ∧ rnd32 (.finite false 3 (2 ^ 150)) = some 2#32 ∧
    rnd32 (.finite true (2 ^ 128 - 2 ^ 103) 1) = some 0xFF800000#32 ∧
    rnd32 (.finite false (2 ^ 128 - 2 ^ 103 - 1) 1) = some 0x7F7FFFFF#32 ∧
    rnd64 (.finite true 1 10) = some 0xBFB999999999999A#64 := by
  decide +kernel

/-- A zero, the largest subnormal, the smallest normal, the largest finite number, an infinity and a NaN. -/
theorem witness_PatternsRoundToThemselves :
    f32 0x80000000#32 = .finite true 0 (2 ^ 149) ∧ f32 0x007FFFFF#32 = .finite false (2 ^ 23 - 1) (2 ^ 149) ∧
    f32 0x00800000#32 = .finite false (2 ^ 23) (2 ^ 149) ∧ f32 0xFF800000#32 = .infinity true ∧
    f32 0x7F800001#32 = .nan ∧ f64 0x7FEFFFFFFFFFFFFF#64 = .finite false ((2 ^ 53 - 1) * 2 ^ 2045) (2 ^ 1074) ∧
    f64 0xFFF0000000000000#64 = .infinity true ∧ f64 0x7FF8000000000000#64 = .nan := by
  decide +kernel

/-- An odd and an even destination; a subnormal, an infinity and a NaN. -/
theorem witness_ConvertToDoubleIsExact :
    (31#5).getLsbD 0 = true ∧ (0#5).getLsbD 0 = false ∧
    f32 ((start.writeF 3 1#32).readF 3) = .finite false 1 (2 ^ 149) ∧
    f32 ((start.writeF 3 0xFF800000#32).readF 3) = .infinity true ∧
    f32 ((start.writeF 3 0x7FA00001#32).readF 3) = .nan := by
  decide +kernel

theorem witness_ConvertToSingleRounds :
    (31#5).getLsbD 0 = true ∧ (2#5).getLsbD 0 = false ∧
    rnd32 (f64 (((start.writeF 2 0x3FB99999#32).writeF 3 0x9999999A#32).readD 2)) = some 0x3DCCCCCD#32 ∧
    f64 ((start.writeF 2 0x7FF80000#32).readD 2) = .nan := by
  decide +kernel

/-- In range at both ends, out of range one past each, an infinity and a NaN (of R183: `0xCF000000` and `0x4F000000`). -/
theorem witness_ConvertToIntegerTruncates :
    let sp (v : Word) := f32 ((start.writeF 1 v).readF 1)
    let dp (v : DWord) := f64 ((start.writeD 2 v).readD 2)
    (31#5).getLsbD 0 = true ∧ (30#5).getLsbD 0 = false ∧
    (sp 0xCF000000#32).truncate = some (-2 ^ 31) ∧ (sp 0x4F000000#32).truncate = none ∧
    (dp 0x41DFFFFFFFFFFFFF#64).truncate = some (2 ^ 31 - 1) ∧ (dp 0xC1E0000000200000#64).truncate = none ∧
    sp 0x7F800001#32 = .nan ∧ sp 0x7F800000#32 = .infinity false := by
  decide +kernel

theorem witness_CompareDoubleResult :
    ((0#5).getLsbD 0 = true ∨ (31#5).getLsbD 0 = true) ∧ (0#5).getLsbD 0 = false ∧ (30#5).getLsbD 0 = false := by
  decide

/-- Both denominators positive: 1/2 and 2/4, and a zero of each sign. -/
theorem witness_ComparisonIsIeee :
    (0 < 2 ∧ 0 < 4) ∧ (FloatValue.finite false 1 2).compare (.finite false 2 4) = some .eq ∧
    (FloatValue.finite true 0 1).compare (.finite false 0 1) = some .eq := by
  decide +kernel

/-- A step that stores, at the last byte of the RAM. -/
theorem witness_StepKeepsInvariant :
    let s := (start.writeR 2 0x10000#32).withFetchWord 32 0xA043FFFF
    s.Inv ∧ ∃ t, step s = .next t ∧ (t.stored == [0xFFFF]) = true := by
  refine ⟨by decide +kernel, exists_next (p := fun t => _) ?_⟩
  decide +kernel

theorem witness_OnlyRfeEntersUserMode :
    ∃ t, step (inSystem.withFetchWord 32 0x40000000) = .next t ∧ (inSystem.mode == .system && t.mode == .user) = true := by
  refine exists_next (p := fun t => _) ?_
  decide +kernel

/-- A trap, and a step that stays in `user` mode. -/
theorem witness_UserModeLeavesTrapStateAlone :
    (∃ t, step (start.withFetchWord 32 0x44000005) = .next t ∧ (t.mode == .system) = true) ∧
    ∃ t, step atNop = .next t ∧ (atNop.mode == .user && t.mode == .user) = true := by
  refine ⟨exists_next (p := fun t => _) ?_, exists_next (p := fun t => _) ?_⟩ <;> decide +kernel

/-- One instruction of each part that completes from `start`. -/
theorem witness_InstructionsWriteOnlyTheirPart :
    let parts := [Instr.addui 1 0 1, .jal 8, .movi2fp 1 2, .movd 6 2, .ltf 1 2, .movi2s 0 2, .sb 1 2 0, .beqz 0 8]
    parts.map partWritten =
      [.gpr 1, .gpr 31, .fpr 1, .pair 6, .flag, .special 0, .memory 2 0 1, .pc] ∧
    parts.all (fun i => answers (exec i based) fun t => t.mode == .user) = true ∧
    answers (exec .rfe State.reset) (fun t => t.mode == .user) = true := by
  decide +kernel

/-- LTF F1, F2 with 1.0 and 2.0 sets the comparison bit; MOVI2S of 0 clears it. -/
theorem witness_OnlyComparesWriteComparisonBit :
    (∃ t, step (((start.writeF 1 0x3F800000#32).writeF 2 0x40000000#32).withFetchWord 32 0x04220012) = .next t ∧
      (t.fpsrC != start.fpsrC) = true) ∧
    ∃ t, step ((start.writeC true).withFetchWord 32 0x00000030) = .next t ∧ (t.fpsrC != true) = true := by
  refine ⟨exists_next (p := fun t => _) ?_, exists_next (p := fun t => _) ?_⟩ <;> decide +kernel

/-! ## Assembler syntax -/

/-- One line of each kind of operand, as 95_test_vectors.md and the table of 30_encoding.md R65 write them, the labels
by the rule. -/
theorem test_assembly : [Instr.lw 1 2 0xFFFC, .sb 3 2 0xFFFF, .ld 2 2 4, .sd 4 2 0, .addi 1 2 0xFFFD, .add 0 0 0,
    .lhi 1 10, .mult 0 1 2, .movd 6 2, .movfp2i 9 1, .movi2fp 2 9, .movi2s 0 5, .movi2s 31 5, .movs2i 4 2, .ltd 2 4,
    .beqz 4 8, .j 0x3FFFFFC, .jalr 31, .trap 5, .rfe].map
      (assembly (fun a => if a = 0x100#32 then "here" else if a = 0x10C#32 then "there" else "?") 0x100#32) =
    ["LW R1, -4(R2)", "SB -1(R2), R3", "LD F2, 4(R2)", "SD 0(R2), F4", "ADDI R1, R2, #-3", "ADD R0, R0, R0",
      "LHI R1, #10", "MULT F0, F1, F2", "MOVD F6, F2", "MOVFP2I R9, F1", "MOVI2FP F2, R9", "MOVI2S FPSR, R5",
      "MOVI2S S31, R5", "MOVS2I R4, ECR", "LTD F2, F4", "BEQZ R4, there", "J here", "JALR R31", "TRAP #5", "RFE"] := by
  decide +kernel

/-- A label eight bytes after the next instruction, and one at the instruction itself. -/
theorem test_labelOffset : labelOffset 0x100#32 0x10C#32 = 8#32 ∧ labelOffset 0x100#32 0x100#32 = 0xFFFFFFFC#32 := by
  decide

end Sys2Proof.Tests
end

section
/-! SUPPORT. The proofs of the statements of spec/20_memory.md: aligned accesses to memory, the bytes a value is held in,
what a fetch answers, and loads of the bytes that a store wrote. -/

namespace Sys2Proof.Machine

/-! ## Ranges of addresses -/

/-- An aligned access does not pass the end of the address space (20_memory.md R33). -/
theorem toNat_add_le_of_aligned {a : Word} {n : Nat} (hn : n ∣ 2 ^ 32) (ha : a.toNat % n = 0) :
    a.toNat + n ≤ 2 ^ 32 := by
  have hd : n ∣ 2 ^ 32 - a.toNat := Nat.dvd_sub hn (Nat.dvd_of_mod_eq_zero ha)
  have := Nat.le_of_dvd (Nat.sub_pos_of_lt a.isLt) hd
  omega

/-- An address inside the address space is the sum of its base and its offset. -/
theorem toNat_add_ofNat {a : Word} {k : Nat} (h : a.toNat + k < 2 ^ 32) :
    (a + BitVec.ofNat 32 k).toNat = a.toNat + k := by
  rw [BitVec.toNat_add, BitVec.toNat_ofNat, Nat.add_mod_mod, Nat.mod_eq_of_lt h]

theorem Platform.allRam_eq_false {p : Platform} {a n : Nat} :
    p.allRam a n = false ↔ ∃ k < n, p.isRam (a + k) = false := by
  rw [← Bool.not_eq_true, Platform.allRam_eq_true]
  simp

theorem anyStored_eq_false {l : List Nat} {a n : Nat} : anyStored l a n = false ↔ ∀ k < n, a + k ∉ l := by
  rw [← Bool.not_eq_true, anyStored_eq_true]
  simp

/-- `m` bytes, `k` bytes into an access of `n` bytes, of a size and at a place that are aligned when the access is
(20_memory.md R33). -/
abbrev AlignedPart (n k m : Nat) : Prop := n ∣ 2 ^ 32 ∧ m ∣ n ∧ m ∣ k ∧ k + m ≤ n

/-- An aligned part of an accessible range is accessible. -/
theorem Accessible.part {s : State} {a : Word} {n k m : Nat} (h : Accessible s a n) (hpart : AlignedPart n k m) :
    Accessible s (a + BitVec.ofNat 32 k) m := by
  obtain ⟨haligned, hram⟩ := h
  obtain ⟨hn, hm, hk, hkm⟩ := hpart
  have hfit := toNat_add_le_of_aligned hn haligned
  have hpos : 0 < m := Nat.pos_of_dvd_of_pos (hm.trans hn) (by decide)
  rw [Accessible, toNat_add_ofNat (by omega)]
  constructor
  · exact Nat.mod_eq_zero_of_dvd (Nat.dvd_add (hm.trans (Nat.dvd_of_mod_eq_zero haligned)) hk)
  · refine Platform.allRam_eq_true.mpr fun j hj => ?_
    rw [Nat.add_assoc]
    exact Platform.allRam_eq_true.mp hram (k + j) (by omega)

/-! ## The bytes of a value -/

/-- Bit `i` of bytes joined onto an accumulator: of the bytes' value below bit `8n`, of the accumulator above. -/
theorem getLsbD_foldl_splitBytes {w w' : Nat} (v : BitVec w) (n : Nat) (acc : BitVec w') (i : Nat) (hi : i < w') :
    ((splitBytes v n).foldl (fun (x : BitVec w') (b : Byte) => (x <<< 8) ||| b.setWidth w') acc).getLsbD i =
      if i < 8 * n then v.getLsbD i else acc.getLsbD (i - 8 * n) := by
  induction n generalizing acc with
  | zero => simp [splitBytes]
  | succ n ih =>
    rw [splitBytes, List.foldl_cons, ih]
    by_cases hlow : i < 8 * n
    · simp [hlow, show i < 8 * (n + 1) by omega]
    · by_cases hmid : i < 8 * (n + 1)
      · simp [hlow, hmid, show i - 8 * n < 8 by omega, show i - 8 * n < w' by omega,
          show 8 * n + (i - 8 * n) = i by omega]
      · simp [hlow, hmid, show ¬ i - 8 * n < 8 by omega, show i - 8 * n < w' by omega,
          show i - 8 * n - 8 = i - 8 * (n + 1) by omega, BitVec.getLsbD_eq_getElem (show i - 8 * (n + 1) < w' by omega)]

/-- The bytes of a whole value join to it again (20_memory.md R30, R37). -/
theorem joinBytes_splitBytes {w n : Nat} (v : BitVec w) (hw : w ≤ 8 * n) : joinBytes w (splitBytes v n) = v := by
  apply BitVec.eq_of_getLsbD_eq
  intro i hi
  rw [joinBytes, getLsbD_foldl_splitBytes v n _ i hi, if_pos (by omega)]

/-- Reading the bytes of a value that memory holds gives them in order. -/
theorem HoldsValue.readBytes {w n : Nat} {s : State} {a : Word} {v : BitVec w} (h : HoldsValue s a n v)
    (ha : a.toNat + n ≤ 2 ^ 32) : s.mem.readBytes a.toNat n = some (splitBytes v n) := by
  refine Memory.readBytes_eq_some.mpr ⟨length_splitBytes v n, fun k hk => ?_⟩
  rw [getElem?_splitBytes v hk, ← h k hk, State.readByte, toNat_add_ofNat (by omega)]

/-- `MemRead` of an accessible value gives it (20_memory.md R36). -/
theorem HoldsValue.memRead {w n : Nat} {s : State} {a : Word} {v : BitVec w} (h : HoldsValue s a n v)
    (ha : Accessible s a n) (hn : n ∣ 2 ^ 32) (hw : w ≤ 8 * n) : s.memRead w a n = .done v := by
  obtain ⟨haligned, hram⟩ := ha
  exact State.memRead_eq_done.mpr ⟨haligned, hram, _, h.readBytes (toNat_add_le_of_aligned hn haligned),
    (joinBytes_splitBytes v hw).symm⟩

/-! ## Fetch -/

/-- When `Fetch` is refused, and why (20_memory.md R38, R45). -/
theorem State.fetch_eq_refuses {s : State} {a : Word} {r : Refusal} :
    s.fetch a = .refuses r ↔
      a.toNat % 4 = 0 ∧ s.platform.allRam a.toNat 4 = true ∧ anyStored s.stored a.toNat 4 = true ∧
        r = .storedCode a := by
  have h := low_bits_eq_zero (a := a)
  unfold State.fetch
  grind

/-! ## Loads of stored bytes -/

/-- A load that writes a GPR answers the value that memory holds at the effective address (20_memory.md R36). -/
theorem Answers.of_load {i : Instr} {s : State} {w n : Nat} {rd rs1 : GReg} {imm : Half} {f : BitVec w → Word}
    {v : BitVec w} (h : exec i s = s.load w n rs1 imm fun u => s.setR rd (f u))
    (hv : HoldsValue s (s.readR rs1 + imm.signExtend 32) n v)
    (ha : Accessible s (s.readR rs1 + imm.signExtend 32) n) (hn : n ∣ 2 ^ 32) (hw : w ≤ 8 * n) :
    Answers i s (GprResult s · rd (f v)) :=
  .of_setR (h.trans (State.load_of_memRead (hv.memRead ha hn hw)))

/-- After a store, the `m` bytes `k` bytes into it hold the matching part of its value (20_memory.md R32). -/
theorem StoreResult.holdsPart {w n k m : Nat} {s t : State} {a : Word} {v : BitVec w} (h : StoreResult s t a n v)
    (ha : a.toNat + n ≤ 2 ^ 32) (hkm : k + m ≤ n) :
    HoldsValue t (a + BitVec.ofNat 32 k) m (v.extractLsb' (8 * (n - k - m)) (8 * m)) := by
  intro j hj
  obtain ⟨hbytes, -⟩ := h
  have haddr : (a + BitVec.ofNat 32 k + BitVec.ofNat 32 j).toNat = a.toNat + k + j := by
    rw [toNat_add_ofNat] <;> rw [toNat_add_ofNat] <;> omega
  rw [hbytes, haddr, if_pos (by omega)]
  congr 1
  apply BitVec.eq_of_getLsbD_eq
  intro b hb
  simp only [BitVec.getLsbD_extractLsb', hb, decide_true, Bool.true_and,
    show 8 * (m - 1 - j) + b < 8 * m by omega]
  congr 1
  omega

/-- A load of `m` bytes, `k` bytes into what the last store wrote, answers with that part of the stored value
(20_memory.md R32), extended to a word by `f`. -/
theorem StoreResult.answers_load {w n k m : Nat} {s t : State} {a : Word} {v : BitVec w} {i : Instr} {r b : GReg}
    {d : Half} {f : BitVec (8 * m) → Word} {x : Word} (hst : StoreResult s t a n v) (hacc : Accessible s a n)
    (hpart : AlignedPart n k m) (haddr : t.readR b + d.signExtend 32 = a + BitVec.ofNat 32 k)
    (hi : exec i t = t.load (8 * m) m b d fun u => t.setR r (f u))
    (hx : f (v.extractLsb' (8 * (n - k - m)) (8 * m)) = x) : Answers i t (GprResult t · r x) := by
  have haccPart : Accessible t (a + BitVec.ofNat 32 k) m := by
    have := hacc.part hpart
    obtain ⟨-, -, -, -, -, -, -, -, hplatform⟩ := hst
    rwa [Accessible, ← hplatform] at this
  obtain ⟨hn, hm, -, hkm⟩ := hpart
  have hv := hst.holdsPart (toNat_add_le_of_aligned hn hacc.1) hkm
  rw [← haddr] at hv haccPart
  exact hx ▸ .of_load hi hv haccPart (hm.trans hn) le_rfl

/-- An instruction has one outcome: the state it answers is the one described. -/
theorem Answers.of_exec_eq {i : Instr} {s t : State} {p : State → Prop} (h : Answers i s p)
    (ht : exec i s = .next t) : p t := by
  obtain ⟨t', ht', hp⟩ := h
  obtain rfl : t' = t := Host.Outcome.next.inj (ht'.symm.trans ht)
  exact hp

end Sys2Proof.Machine

open Sys2Proof Sys2Proof.Machine

/-- Settles O7: each clause is one answer of `State.fetch`, by the lemma that says when it is given. -/
theorem fetchFollowsItsOrder : Obligations.FetchFollowsItsOrder := by
  intro s a
  refine ⟨fun hmis => ?misaligned, fun hal habs => ?absent, fun hal hram hst => ?stored,
    fun w hal hram hst hw => ?word⟩
  case misaligned => exact State.fetch_eq_raises.mpr ⟨rfl, .inl ⟨hmis, rfl⟩⟩
  case absent => exact State.fetch_eq_raises.mpr ⟨rfl, .inr ⟨hal, Platform.allRam_eq_false.mpr habs, rfl⟩⟩
  case stored =>
    exact State.fetch_eq_refuses.mpr ⟨hal, Platform.allRam_eq_true.mpr hram, anyStored_eq_true.mpr hst, rfl⟩
  case word =>
    have hfit := toNat_add_le_of_aligned (by decide) hal
    exact State.fetch_eq_done.mpr ⟨hal, Platform.allRam_eq_true.mpr hram, anyStored_eq_false.mpr hst, _,
      hw.readBytes hfit, (joinBytes_splitBytes w le_rfl).symm⟩

/-- Settles O23: the state after the store is its `StoreResult`, and each load reads a part of the stored value. -/
theorem mixedWidthLoadsSeeStoredBytes : Obligations.MixedWidthLoadsSeeStoredBytes := by
  constructor
  · rintro rd rs1 r b imm d s t a rfl hacc hv hexec
    have hst : StoreResult s t _ 4 0x11223344#32 :=
      hv ▸ (Answers.of_store (i := .sw rd rs1 imm) rfl hacc).of_exec_eq hexec
    refine ⟨fun h => ⟨?lb, ?lhu⟩, fun h => ?lbu, fun h => ?lh⟩
    case lb => exact hst.answers_load (k := 0) (m := 1) (f := sext) hacc (by decide) (by simpa using h) rfl rfl
    case lhu => exact hst.answers_load (k := 0) (m := 2) (f := zext) hacc (by decide) (by simpa using h) rfl rfl
    case lbu => exact hst.answers_load (k := 3) (m := 1) (f := zext) hacc (by decide) h rfl rfl
    case lh => exact hst.answers_load (k := 2) (m := 2) (f := sext) hacc (by decide) h rfl rfl
  · rintro f rs1 r b imm d s t a rfl hacc hf hexec
    have hpair : exec (.sd f rs1 imm) s = s.store 8 rs1 imm (s.readD f) :=
      State.withPairs_of_wellFormed (by simpa [Instr.wellFormed, FReg.isPair] using hf) _
    have hst : StoreResult s t _ 8 (s.readF f ++ s.readF (f + 1#5) : DWord) :=
      (Answers.of_store hpair hacc).of_exec_eq hexec
    refine ⟨fun h => ?even, fun h => ?odd⟩
    case even =>
      exact hst.answers_load (k := 0) (m := 4) (f := id) hacc (by decide) (by simpa using h) rfl
        BitVec.extractLsb'_append_eq_left
    case odd =>
      exact hst.answers_load (k := 4) (m := 4) (f := id) hacc (by decide) h rfl BitVec.extractLsb'_append_eq_right
end

section
/-! SUPPORT. The proofs of the statements of spec/30_encoding.md about reserved words and pseudo-instructions: the add
without overflow, the two halves of a constant, and a write to R0. -/

namespace Sys2Proof.Machine

variable {s t : State}

/-! ## Arithmetic of the pseudo-instructions -/

/-- Adding 0 never overflows: the result has the sign of the operand (41_arithmetic_logical.md R99). -/
theorem addOverflows_zero (a : Word) : addOverflows a 0#32 = false := by
  simp [addOverflows]

/-- A signed add or subtract that does not overflow writes its result. -/
theorem State.setRChecked_of_not_overflows {b : Bool} (h : b = false) (rd : GReg) (v : Word) :
    s.setRChecked b rd v = s.setR rd v := by
  simp [State.setRChecked, h]

/-- A word is its upper half as LHI places it, joined with its lower half as ORI extends it (30_encoding.md R66). -/
theorem highImmediate_or_zext (k : Word) : highImmediate (k.extractLsb' 16 16) ||| zext (k.extractLsb' 0 16) = k :=
  calc highImmediate (k.extractLsb' 16 16) ||| zext (k.extractLsb' 0 16)
    _ = (k.extractLsb' 16 16 ++ 0#16) ||| (0#16 ++ k.extractLsb' 0 16) :=
      congrArg _ (BitVec.setWidth_eq_append (by decide))
    _ = (k.extractLsb' 16 16 ++ k.extractLsb' 0 16 : Word) := by rw [BitVec.or_append, BitVec.or_zero, BitVec.zero_or]
    _ = k := BitVec.extractLsb'_append_extractLsb'

/-! ## Adding R0 -/

/-- ADD with R0 as its second operand moves a register: it cannot overflow (41_arithmetic_logical.md R100). -/
theorem exec_add_zero (rd rs : GReg) (s : State) : exec (.add rd rs 0#5) s = s.setR rd (s.readR rs) :=
  calc exec (.add rd rs 0#5) s
    _ = s.setRChecked (addOverflows (s.readR rs) 0#32) rd (s.readR rs + 0#32) := rfl
    _ = s.setR rd (s.readR rs + 0#32) := State.setRChecked_of_not_overflows (addOverflows_zero _) rd _
    _ = s.setR rd (s.readR rs) := by rw [BitVec.add_zero]

/-- ADDU with R0 as its second operand moves a register (41_arithmetic_logical.md R102). -/
theorem exec_addu_zero (rd rs : GReg) (s : State) : exec (.addu rd rs 0#5) s = s.setR rd (s.readR rs) :=
  calc exec (.addu rd rs 0#5) s
    _ = s.setR rd (s.readR rs + 0#32) := rfl
    _ = s.setR rd (s.readR rs) := by rw [BitVec.add_zero]

/-! ## What a written GPR leaves -/

/-- A write to R0 is discarded, so that `pc` alone changes (10_state.md R11). -/
theorem GprResult.jumpResult {v : Word} (h : GprResult s t 0#5 v) : JumpResult s t (s.pc + 4#32) := by
  obtain ⟨hgprs, hpc, hframe⟩ := h
  refine ⟨hpc, fun i => ?_, hframe⟩
  rw [hgprs]
  by_cases hi : i = 0#5 <;> simp [hi]

/-- A GPR other than R0 reads as the value written to it. -/
theorem GprResult.readR_same {rd : GReg} {v : Word} (h : GprResult s t rd v) (hrd : rd ≠ 0#5) : t.readR rd = v := by
  obtain ⟨hgprs, -⟩ := h
  simp [hgprs, hrd]

/-- Every other GPR reads as before. -/
theorem GprResult.readR_of_ne {rd i : GReg} {v : Word} (h : GprResult s t rd v) (hi : i ≠ rd) :
    t.readR i = s.readR i := by
  obtain ⟨hgprs, -⟩ := h
  by_cases h0 : i = 0#5 <;> simp [hgprs, h0, hi]

end Sys2Proof.Machine

open Sys2Proof Sys2Proof.Machine

/-- Settles O9: the fetch gives the word, and no instruction is there to run, so that the step is trap entry. -/
theorem reservedWordRaises : Obligations.ReservedWordRaises := by
  intro s w hw hreserved
  refine ⟨_, ?_, s.takeException_result .illegalInstruction w⟩
  cases hd : decode w with
  | ok i => exact absurd hd (hreserved i)
  | error e => exact step_eq_next.mpr (.inr (.inl ⟨w, e, hw.fetch, hd, rfl⟩))

/-- Settles O38: NOP is a move to R0, which is discarded; ORI reads what LHI left in the register and fills its lower
half. -/
theorem pseudoInstructionsWork : Obligations.PseudoInstructionsWork := by
  refine ⟨fun s => ⟨rfl, ?nop⟩, fun rd k s hrd => ?constant, fun rd rs s => ⟨?moveAdd, ?moveAddu⟩⟩
  case nop =>
    obtain ⟨t, ht, hres⟩ := Answers.of_setR (exec_add_zero 0#5 0#5 s)
    exact ⟨t, ht, hres.jumpResult⟩
  case constant =>
    obtain ⟨t, ht, hlhi⟩ : Answers (.lhi rd (k.extractLsb' 16 16)) s (GprResult s · rd _) := .of_setR rfl
    obtain ⟨u, hu, hori⟩ : Answers (.ori rd rd (k.extractLsb' 0 16)) t (GprResult t · rd _) := .of_setR rfl
    refine ⟨t, u, ht, hu, ?_, fun i hi => (hori.readR_of_ne hi).trans (hlhi.readR_of_ne hi)⟩
    rw [hori.readR_same hrd, hlhi.readR_same hrd, highImmediate_or_zext]
  case moveAdd => exact .of_setR (exec_add_zero rd rs s)
  case moveAddu => exact .of_setR (exec_addu_zero rd rs s)
end

section
/-! SUPPORT. The proofs of the statements of spec/40_data_transfer.md: loads and stores of each size, the moves between
register files, and the moves to and from the special registers. -/

namespace Sys2Proof.Machine

variable {i : Instr} {s : State}

/-! ## Register pairs -/

/-- A register number names a pair exactly when it is even (10_state.md R16). -/
theorem FReg.isPair_eq_true {r : FReg} : r.isPair = true ↔ r.getLsbD 0 = false := by
  simp [FReg.isPair]

/-- A register number that names no pair is odd. -/
theorem FReg.isPair_eq_false {r : FReg} : r.isPair = false ↔ r.getLsbD 0 = true := by
  simp [FReg.isPair]

/-! ## Loads -/

theorem Platform.allRam_one (p : Platform) (a : Nat) : p.allRam a 1 = p.isRam a := by
  simp [Platform.allRam]

/-- A byte of memory is held as a value of one byte. -/
theorem HoldsValue.of_readByte {a : Word} {b : Byte} (h : s.readByte a = some b) : HoldsValue s a 1 b := by
  intro k hk
  obtain rfl : k = 0 := by omega
  simpa [BitVec.extractLsb'_eq_self] using h

/-- A load of a value that memory holds goes on with that value, whatever register it is for (20_memory.md R36). -/
theorem HoldsValue.exec_load {w n : Nat} {rs1 : GReg} {imm : Half} {k : BitVec w → Result} {v : BitVec w}
    (hv : HoldsValue s (s.readR rs1 + imm.signExtend 32) n v) (ha : Accessible s (s.readR rs1 + imm.signExtend 32) n)
    (hn : n ∣ 2 ^ 32) (hw : w ≤ 8 * n) (h : exec i s = s.load w n rs1 imm k) : exec i s = k v :=
  h.trans (State.load_of_memRead (hv.memRead ha hn hw))

/-! ## Special registers -/

/-- The numbers of the special registers that only system mode may access (10_state.md R20). -/
theorem SReg.eq_of_privileged {k : SReg} (h1 : 1 ≤ k.toNat) (h3 : k.toNat ≤ 3) : k = 1#5 ∨ k = 2#5 ∨ k = 3#5 := by
  bv_omega

/-- Special register 0 is the comparison bit below 31 zeros (10_state.md R19). -/
theorem State.fpsr_eq (s : State) : s.fpsr = if s.fpsrC then 1#32 else 0#32 := by
  unfold State.fpsr
  cases s.fpsrC <;> rfl

/-- A privileged instruction in `user` mode (60_exceptions.md R221). -/
theorem Answers.of_privileged_user (h : ∃ r, exec i s = s.privileged i r) (hm : s.mode = .user) :
    Answers i s (TrapResult s · .privilegedInstruction (encode i)) := by
  obtain ⟨r, hr⟩ := h
  exact .of_raise (hr.trans (State.privileged_of_user hm r))

theorem Answers.of_writeC {b : Bool} (h : exec i s = .next (s.writeC b).advance) : Answers i s (FlagResult s · b) :=
  ⟨_, h, rfl, rfl, fun _ => rfl, fun _ => rfl, ⟨rfl, rfl, rfl, rfl⟩, ⟨fun _ => rfl, rfl⟩, rfl, rfl⟩

/-- One of IAR, ECR and EDR written is all three written, two of them with what they held. -/
theorem Answers.of_writeSpecials {iar ecr edr : Word}
    (h : exec i s = .next (((s.writeIar iar).writeEcr ecr).writeEdr edr).advance) :
    Answers i s (SpecialResult s · iar ecr edr) :=
  ⟨_, h, rfl, rfl, rfl, rfl, rfl, fun _ => rfl, fun _ => rfl, rfl, ⟨fun _ => rfl, rfl⟩, rfl, rfl⟩

section
variable {k : SReg}

/-- MOVI2S to a number that names no special register is illegal in either mode (40_data_transfer.md R84). -/
theorem exec_movi2s_of_reserved (rs1 : GReg) (s : State) (h : 3 < k.toNat) :
    exec (.movi2s k rs1) s = s.raise .illegalInstruction (encode (.movi2s k rs1)) := by
  obtain ⟨m, hm⟩ : ∃ m, k.toNat = m + 4 := ⟨k.toNat - 4, by omega⟩
  show execMovi2s k rs1 s = _
  simp [execMovi2s, hm]

/-- MOVS2I from a number that names no special register is illegal in either mode (40_data_transfer.md R85). -/
theorem exec_movs2i_of_reserved (rd : GReg) (s : State) (h : 3 < k.toNat) :
    exec (.movs2i rd k) s = s.raise .illegalInstruction (encode (.movs2i rd k)) := by
  obtain ⟨m, hm⟩ : ∃ m, k.toNat = m + 4 := ⟨k.toNat - 4, by omega⟩
  show execMovs2i rd k s = _
  simp [execMovs2i, hm]

/-- MOVI2S to IAR, ECR or EDR is privileged (40_data_transfer.md R84). -/
theorem exec_movi2s_of_privileged (rs1 : GReg) (s : State) (h1 : 1 ≤ k.toNat) (h3 : k.toNat ≤ 3) :
    ∃ r, exec (.movi2s k rs1) s = s.privileged (.movi2s k rs1) r := by
  obtain rfl | rfl | rfl := SReg.eq_of_privileged h1 h3 <;> exact ⟨_, rfl⟩

/-- MOVS2I from IAR, ECR or EDR is privileged (40_data_transfer.md R85). -/
theorem exec_movs2i_of_privileged (rd : GReg) (s : State) (h1 : 1 ≤ k.toNat) (h3 : k.toNat ≤ 3) :
    ∃ r, exec (.movs2i rd k) s = s.privileged (.movs2i rd k) r := by
  obtain rfl | rfl | rfl := SReg.eq_of_privileged h1 h3 <;> exact ⟨_, rfl⟩

end

end Sys2Proof.Machine

open Sys2Proof Sys2Proof.Machine

/-- Settles O15: the number of the special register decides which of the four shapes the meaning has. -/
theorem movi2sWritesSpecial : Obligations.Movi2sWritesSpecial := by
  intro k rs1 s
  refine ⟨rfl, fun hres => ?reserved, fun h1 h3 hu => ?user, fun h0 => ?fpsr,
    fun hsys => ⟨fun hk => ?iar, fun hk => ?ecr, fun hk => ?edr⟩⟩
  case reserved => exact .of_raise (exec_movi2s_of_reserved rs1 s hres)
  case user => exact .of_privileged_user (exec_movi2s_of_privileged rs1 s h1 h3) hu
  all_goals subst k
  case fpsr => exact .of_writeC rfl
  case iar | ecr | edr => exact .of_writeSpecials (State.privileged_of_system hsys _)

/-- Settles O16: as for MOVI2S, the number of the special register decides. -/
theorem movs2iReadsSpecial : Obligations.Movs2iReadsSpecial := by
  intro rd k s
  refine ⟨rfl, fun hres => ?reserved, fun h1 h3 hu => ?user, fun h0 => ?fpsr,
    fun hsys => ⟨fun hk => ?iar, fun hk => ?ecr, fun hk => ?edr⟩⟩
  case reserved => exact .of_raise (exec_movs2i_of_reserved rd s hres)
  case user => exact .of_privileged_user (exec_movs2i_of_privileged rd s h1 h3) hu
  all_goals subst k
  case fpsr => exact s.fpsr_eq ▸ .of_setR rfl
  case iar | ecr | edr => exact .of_setR (State.privileged_of_system hsys _)

/-- Settles O17: one byte is never misaligned, and the byte that memory has is the value it holds. -/
theorem loadByteResult : Obligations.LoadByteResult := by
  intro rd rs1 imm s a
  refine ⟨rfl, rfl, fun habs => ?absent, fun b hram hb => ?byte⟩
  case absent =>
    have habs1 : s.platform.allRam a.toNat 1 = false := (Platform.allRam_one ..).trans habs
    obtain ⟨-, hlb⟩ := AccessTraps.of_load (i := .lb rd rs1 imm) (s := s) rfl
    obtain ⟨-, hlbu⟩ := AccessTraps.of_load (i := .lbu rd rs1 imm) (s := s) rfl
    exact ⟨hlb (Nat.mod_one _) habs1, hlbu (Nat.mod_one _) habs1⟩
  case byte =>
    have hacc : Accessible s a 1 := ⟨Nat.mod_one _, (Platform.allRam_one ..).trans hram⟩
    have hv := HoldsValue.of_readByte hb
    exact ⟨.of_load (f := sext) rfl hv hacc (by decide) le_rfl, .of_load (f := zext) rfl hv hacc (by decide) le_rfl⟩

/-- Settles O18: both are loads of two bytes that extend what memory holds. -/
theorem loadHalfwordResult : Obligations.LoadHalfwordResult := by
  intro rd rs1 imm s a
  refine ⟨rfl, rfl, .of_load rfl, .of_load rfl, fun v hacc hv => ⟨?lh, ?lhu⟩⟩
  case lh => exact .of_load (f := sext) rfl hv hacc (by decide) le_rfl
  case lhu => exact .of_load (f := zext) rfl hv hacc (by decide) le_rfl

/-- Settles O19: both are loads of four bytes, which differ in the register file they write. -/
theorem loadWordResult : Obligations.LoadWordResult := by
  intro rd rs1 imm s a
  refine ⟨rfl, rfl, .of_load rfl, .of_load rfl, fun v hacc hv => ⟨?lw, ?lf⟩⟩
  case lw => exact .of_setR (hv.exec_load hacc (by decide) le_rfl rfl)
  case lf => exact .of_setF (hv.exec_load hacc (by decide) le_rfl rfl)

/-- Settles O20: past the guard on its register LD is a load of eight bytes. -/
theorem loadDoubleResult : Obligations.LoadDoubleResult := by
  intro rd rs1 imm s a i
  refine ⟨rfl, fun hodd => ?odd, fun heven => ?even⟩
  case odd => exact .of_not_wellFormed rfl (FReg.isPair_eq_false.mpr hodd)
  case even =>
    have hload : exec i s = s.load 64 8 rs1 imm fun v => s.setD rd v :=
      State.withPairs_of_wellFormed (i := i) (FReg.isPair_eq_true.mpr heven) _
    exact ⟨.of_load hload, fun v hacc hv => .of_setD (hv.exec_load hacc (by decide) le_rfl hload)⟩

/-- Settles O21: the three are stores of the GPR, which differ in how many bytes they store. -/
theorem storeGprResult : Obligations.StoreGprResult := by
  intro rd rs1 imm s a
  exact ⟨rfl, rfl, rfl, .of_store rfl, .of_store rfl, .of_store rfl, .of_store rfl, .of_store rfl, .of_store rfl⟩

/-- Settles O22: SF is a store of four bytes, and past the guard on its register SD is one of eight. -/
theorem storeFprResult : Obligations.StoreFprResult := by
  intro rd rs1 imm s a i
  refine ⟨rfl, rfl, .of_store rfl, .of_store rfl, fun hodd => ?odd, fun heven => ?even⟩
  case odd => exact .of_not_wellFormed rfl (FReg.isPair_eq_false.mpr hodd)
  case even =>
    have hstore : exec i s = s.store 8 rs1 imm (s.readD rd) :=
      State.withPairs_of_wellFormed (i := i) (FReg.isPair_eq_true.mpr heven) _
    exact ⟨.of_store hstore, .of_store hstore⟩

/-- Settles O25: the guard asks for two even registers, and past it MOVD writes the pair read in the old state. -/
theorem movePairResult : Obligations.MovePairResult := by
  intro rd rs1 s i
  have hwf : i.wellFormed = (FReg.isPair rd && FReg.isPair rs1) := rfl
  refine ⟨rfl, fun hodd => ?odd, fun hrd hrs1 => ?even⟩
  case odd =>
    refine .of_not_wellFormed rfl ?_
    rwa [hwf, Bool.and_eq_false_iff, FReg.isPair_eq_false, FReg.isPair_eq_false]
  case even =>
    refine .of_setD (State.withPairs_of_wellFormed ?_ _)
    rw [Instr.wellFormed, FReg.isPair_eq_true.mpr hrd, FReg.isPair_eq_true.mpr hrs1, Bool.and_self]

/-- Settles O24: each writes the bits of one register, as they are, to one register of either file. -/
theorem moveWordResult : Obligations.MoveWordResult :=
  fun _ _ _ => ⟨rfl, rfl, rfl, .of_setF rfl, .of_setR rfl, .of_setF rfl⟩
end

section
/-! SUPPORT. The proofs of the statements of spec/41_arithmetic_logical.md: the overflow conditions against the exact
results, the words written against the numbers the rules write, and the conditions of the set-conditionals. -/

namespace Sys2Proof.Machine

variable {i : Instr} {s : State}

/-! ## Overflow (41_arithmetic_logical.md R99) -/

theorem outsideSigned_eq_true {x : Int} : outsideSigned x = true ↔ x < -2 ^ 31 ∨ 2 ^ 31 - 1 < x := by
  simp [outsideSigned]

theorem outsideSigned_eq_false {x : Int} : outsideSigned x = false ↔ -2 ^ 31 ≤ x ∧ x ≤ 2 ^ 31 - 1 := by
  simp [outsideSigned]

/-- The sign-bit form of overflow of a sum says that the exact sum is out of range. -/
theorem addOverflows_eq_outsideSigned (a b : Word) : addOverflows a b = outsideSigned (a.toInt + b.toInt) :=
  calc addOverflows a b
    _ = a.saddOverflow b := (BitVec.saddOverflow_eq a b).symm
    _ = outsideSigned (a.toInt + b.toInt) := by
      rw [Bool.eq_iff_iff, outsideSigned_eq_true]
      simp only [BitVec.saddOverflow, Bool.or_eq_true, decide_eq_true_eq]
      omega

/-- The sign-bit form of overflow of a difference says that the exact difference is out of range. -/
theorem subOverflows_eq_outsideSigned (a b : Word) : subOverflows a b = outsideSigned (a.toInt - b.toInt) :=
  calc subOverflows a b
    _ = a.ssubOverflow b := by
      rw [BitVec.ssubOverflow_eq]
      unfold subOverflows
      cases a.msb <;> cases b.msb <;> simp
    _ = outsideSigned (a.toInt - b.toInt) := by
      rw [Bool.eq_iff_iff, outsideSigned_eq_true]
      simp only [BitVec.ssubOverflow, Bool.or_eq_true, decide_eq_true_eq]
      omega

/-- A word made of an integer in the signed range reads as that integer. -/
theorem toInt_ofInt_of_inside {x : Int} (h : outsideSigned x = false) : (BitVec.ofInt 32 x).toInt = x := by
  obtain ⟨hlow, hhigh⟩ := outsideSigned_eq_false.mp h
  exact BitVec.toInt_ofInt_eq_self (by decide) hlow (Int.lt_of_le_sub_one hhigh)

/-- A checked operation whose overflow condition says that the exact result `x` is out of range. -/
theorem Answers.of_setRChecked {o : Bool} {rd : GReg} {v : Word} {x : Int} (h : exec i s = s.setRChecked o rd v)
    (ho : o = outsideSigned x) :
    (x < -2 ^ 31 ∨ 2 ^ 31 - 1 < x → Answers i s (TrapResult s · .integerOverflow 0#32)) ∧
    (-2 ^ 31 ≤ x → x ≤ 2 ^ 31 - 1 → Answers i s (GprResult s · rd v)) := by
  constructor
  · intro hout
    have htrue : o = true := ho.trans (outsideSigned_eq_true.mpr hout)
    exact .of_raise (h.trans (by simp [State.setRChecked, htrue]))
  · intro hlow hhigh
    have hfalse : o = false := ho.trans (outsideSigned_eq_false.mpr ⟨hlow, hhigh⟩)
    exact .of_setR (h.trans (State.setRChecked_of_not_overflows hfalse rd v))

/-! ## Sums and differences as numbers -/

theorem toInt_sext (imm : Half) : (sext imm).toInt = imm.toInt := BitVec.toInt_signExtend_of_le (by decide)

theorem toNat_zext (imm : Half) : (zext imm).toNat = imm.toNat := BitVec.toNat_setWidth_of_le (by decide)

theorem ofInt_sub {w : Nat} (x y : Int) : BitVec.ofInt w (x - y) = BitVec.ofInt w x - BitVec.ofInt w y := by
  rw [Int.sub_eq_add_neg, BitVec.ofInt_add, BitVec.ofInt_neg, BitVec.sub_eq_add_neg]

/-- The sum with a sign-extended immediate is the exact signed sum modulo 2^32. -/
theorem add_sext_eq_ofInt (a : Word) (imm : Half) : a + sext imm = BitVec.ofInt 32 (a.toInt + imm.toInt) := by
  rw [BitVec.ofInt_add, ← toInt_sext, BitVec.ofInt_toInt, BitVec.ofInt_toInt]

/-- The difference with a sign-extended immediate is the exact signed difference modulo 2^32. -/
theorem sub_sext_eq_ofInt (a : Word) (imm : Half) : a - sext imm = BitVec.ofInt 32 (a.toInt - imm.toInt) := by
  rw [ofInt_sub, ← toInt_sext, BitVec.ofInt_toInt, BitVec.ofInt_toInt]

/-- A difference is the exact difference of the unsigned operands modulo 2^32. -/
theorem sub_eq_ofInt_toNat (a b : Word) : a - b = BitVec.ofInt 32 ((a.toNat : Int) - b.toNat) := by
  rw [ofInt_sub, BitVec.ofInt_natCast, BitVec.ofInt_natCast, BitVec.ofNat_toNat, BitVec.ofNat_toNat,
    BitVec.setWidth_eq, BitVec.setWidth_eq]

/-! ## Multiplication and division -/

/-- MULT out of range is trap entry. -/
theorem exec_mult_of_outside {rd rs1 rs2 : FReg}
    (h : outsideSigned ((s.readF rs1).toInt * (s.readF rs2).toInt) = true) :
    exec (.mult rd rs1 rs2) s = s.raise .integerOverflow 0#32 :=
  if_pos h

/-- MULT in range writes the product. -/
theorem exec_mult_of_inside {rd rs1 rs2 : FReg}
    (h : outsideSigned ((s.readF rs1).toInt * (s.readF rs2).toInt) = false) :
    exec (.mult rd rs1 rs2) s = s.setF rd (BitVec.ofInt 32 ((s.readF rs1).toInt * (s.readF rs2).toInt)) :=
  if_neg (ne_true_of_eq_false h)

theorem divOverflows_eq_true {n d : Word} : divOverflows n d = true ↔ n.toInt = -2 ^ 31 ∧ d.toInt = -1 := by
  simp [divOverflows]

theorem exec_div_of_zero {rd rs1 rs2 : FReg} (h : s.readF rs2 = 0#32) :
    exec (.div rd rs1 rs2) s = s.raise .divideByZero 0#32 :=
  if_pos h

/-- DIV of the one quotient out of range: the divisor -1 is not zero. -/
theorem exec_div_of_overflows {rd rs1 rs2 : FReg} (h : divOverflows (s.readF rs1) (s.readF rs2) = true) :
    exec (.div rd rs1 rs2) s = s.raise .integerOverflow 0#32 := by
  have hne : s.readF rs2 ≠ 0#32 := by
    obtain ⟨-, hd⟩ := divOverflows_eq_true.mp h
    intro h0
    simp [h0] at hd
  exact (if_neg hne).trans (if_pos h)

theorem exec_div_of_not_overflows {rd rs1 rs2 : FReg} (hne : s.readF rs2 ≠ 0#32)
    (h : divOverflows (s.readF rs1) (s.readF rs2) = false) :
    exec (.div rd rs1 rs2) s = s.setF rd (BitVec.ofInt 32 ((s.readF rs1).toInt.tdiv (s.readF rs2).toInt)) :=
  (if_neg hne).trans (if_neg (ne_true_of_eq_false h))

theorem exec_divu_of_zero {rd rs1 rs2 : FReg} (h : s.readF rs2 = 0#32) :
    exec (.divu rd rs1 rs2) s = s.raise .divideByZero 0#32 :=
  if_pos h

theorem exec_divu_of_ne_zero {rd rs1 rs2 : FReg} (h : s.readF rs2 ≠ 0#32) :
    exec (.divu rd rs1 rs2) s = s.setF rd (BitVec.ofNat 32 ((s.readF rs1).toNat / (s.readF rs2).toNat)) :=
  if_neg h

/-- `-2^31 / -1` is the one signed quotient that no word reads as (41_arithmetic_logical.md R110). -/
theorem toInt_ofInt_tdiv {n d : Word} (h : divOverflows n d = false) :
    (BitVec.ofInt 32 (n.toInt.tdiv d.toInt)).toInt = n.toInt.tdiv d.toInt := by
  have hne : n ≠ BitVec.intMin 32 ∨ d ≠ -1#32 := by
    by_contra hboth
    obtain ⟨rfl, rfl⟩ : n = BitVec.intMin 32 ∧ d = -1#32 := by simpa using hboth
    exact absurd h (by decide)
  calc (BitVec.ofInt 32 (n.toInt.tdiv d.toInt)).toInt
    _ = (n.toInt.tdiv d.toInt).bmod (2 ^ 32) := BitVec.toInt_ofInt _
    _ = (n.sdiv d).toInt := (BitVec.toInt_sdiv n d).symm
    _ = n.toInt.tdiv d.toInt := BitVec.toInt_sdiv_of_ne_or_ne n d hne

/-! ## Logical operations on halves -/

theorem zext_eq_append (imm : Half) : zext imm = (0#16 ++ imm : Word) := BitVec.setWidth_eq_append (by decide)

section
variable (hi lo imm : Half)

/-- ANDI clears the upper half (41_arithmetic_logical.md R113). -/
theorem append_and_zext : (hi ++ lo : Word) &&& zext imm = 0#16 ++ (lo &&& imm) := by
  rw [zext_eq_append, BitVec.and_append, BitVec.and_zero]

/-- ORI keeps the upper half (41_arithmetic_logical.md R115). -/
theorem append_or_zext : (hi ++ lo : Word) ||| zext imm = hi ++ (lo ||| imm) := by
  rw [zext_eq_append, BitVec.or_append, BitVec.or_zero]

/-- XORI keeps the upper half (41_arithmetic_logical.md R117). -/
theorem append_xor_zext : (hi ++ lo : Word) ^^^ zext imm = hi ++ (lo ^^^ imm) := by
  rw [zext_eq_append, BitVec.xor_append, BitVec.xor_zero]

end

/-! ## Shifts as multiplication and division -/

theorem shiftAmount_eq_mod (v : Word) : shiftAmount v = v.toNat % 32 := BitVec.extractLsb'_toNat 0 5 v

theorem shiftAmountImm_eq_mod (imm : Half) : shiftAmountImm imm = imm.toNat % 32 := BitVec.extractLsb'_toNat 0 5 imm

section
variable (a : Word) (n : Nat)

theorem shiftLeft_eq_ofNat : a <<< n = BitVec.ofNat 32 (a.toNat * 2 ^ n) := by
  apply BitVec.eq_of_toNat_eq
  rw [BitVec.toNat_shiftLeft, BitVec.toNat_ofNat, Nat.shiftLeft_eq]

theorem ushiftRight_eq_ofNat : a >>> n = BitVec.ofNat 32 (a.toNat / 2 ^ n) := by
  apply BitVec.eq_of_toNat_eq
  have hlt : a.toNat / 2 ^ n < 2 ^ 32 := (Nat.div_le_self ..).trans_lt a.isLt
  rw [BitVec.toNat_ushiftRight, BitVec.toNat_ofNat, Nat.shiftRight_eq_div_pow, Nat.mod_eq_of_lt hlt]

theorem sshiftRight_eq_ofInt : a.sshiftRight n = BitVec.ofInt 32 (a.toInt / 2 ^ n) := by
  rw [BitVec.sshiftRight, Int.shiftRight_eq_div_pow, Nat.cast_pow, Nat.cast_ofNat]

end

/-! ## Set conditional (41_arithmetic_logical.md R125) -/

section
variable (a b : Word)

theorem Cond.holdsSigned_lt : Cond.lt.holdsSigned a b = true ↔ a.toInt < b.toInt := by
  simp [Cond.holdsSigned, Cond.holds, compare_lt_iff_lt]

theorem Cond.holdsSigned_gt : Cond.gt.holdsSigned a b = true ↔ b.toInt < a.toInt := by
  simp [Cond.holdsSigned, Cond.holds, compare_gt_iff_gt]

theorem Cond.holdsSigned_le : Cond.le.holdsSigned a b = true ↔ a.toInt ≤ b.toInt := by
  simp [Cond.holdsSigned, Cond.holds, compare_lt_iff_lt, le_iff_lt_or_eq]

theorem Cond.holdsSigned_ge : Cond.ge.holdsSigned a b = true ↔ b.toInt ≤ a.toInt := by
  simp [Cond.holdsSigned, Cond.holds, compare_gt_iff_gt, le_iff_lt_or_eq, eq_comm (a := b.toInt)]

theorem Cond.holdsSigned_eq : Cond.eq.holdsSigned a b = true ↔ a.toInt = b.toInt := by
  simp [Cond.holdsSigned, Cond.holds]

theorem Cond.holdsSigned_ne : Cond.ne.holdsSigned a b = true ↔ ¬ a.toInt = b.toInt := by
  simp [Cond.holdsSigned, Cond.holds]

end

/-- A set-conditional writes 1 where its condition holds and 0 where it does not. -/
theorem Answers.of_setCond {b : Bool} {rd : GReg} {p : Prop} [Decidable p] (h : exec i s = s.setR rd (boolWord b))
    (hp : b = true ↔ p) : Answers i s (GprResult s · rd (if p then 1#32 else 0#32)) := by
  simp only [← hp]
  exact .of_setR h

/-- The same of a condition that is stated by when it fails. -/
theorem Answers.of_setCond_not {b : Bool} {rd : GReg} {p : Prop} [Decidable p] (h : exec i s = s.setR rd (boolWord b))
    (hp : b = true ↔ ¬ p) : Answers i s (GprResult s · rd (if p then 0#32 else 1#32)) := by
  simpa only [ite_not] using Answers.of_setCond h hp

end Sys2Proof.Machine

open Sys2Proof Sys2Proof.Machine

/-- Settles O27: the sign-bit conditions of R100 and R104 say that the exact result is out of range. -/
theorem addSubResult : Obligations.AddSubResult := by
  intro rd rs1 rs2 s a b
  obtain ⟨haddTrap, hadd⟩ := Answers.of_setRChecked (i := .add rd rs1 rs2) rfl (addOverflows_eq_outsideSigned a b)
  obtain ⟨hsubTrap, hsub⟩ := Answers.of_setRChecked (i := .sub rd rs1 rs2) rfl (subOverflows_eq_outsideSigned a b)
  exact ⟨rfl, rfl, haddTrap, hadd, hsubTrap, hsub⟩

/-- Settles O28: the checked sum and difference of O27, with an operand that reads as the signed immediate. -/
theorem addSubImmediateResult : Obligations.AddSubImmediateResult := by
  intro rd rs1 imm s a
  have haddOv : addOverflows a (sext imm) = outsideSigned (a.toInt + imm.toInt) :=
    toInt_sext imm ▸ addOverflows_eq_outsideSigned a (sext imm)
  have hsubOv : subOverflows a (sext imm) = outsideSigned (a.toInt - imm.toInt) :=
    toInt_sext imm ▸ subOverflows_eq_outsideSigned a (sext imm)
  obtain ⟨haddTrap, hadd⟩ := Answers.of_setRChecked (i := .addi rd rs1 imm) rfl haddOv
  obtain ⟨hsubTrap, hsub⟩ := Answers.of_setRChecked (i := .subi rd rs1 imm) rfl hsubOv
  rw [add_sext_eq_ofInt] at hadd
  rw [sub_sext_eq_ofInt] at hsub
  exact ⟨rfl, rfl, haddTrap, hadd, hsubTrap, hsub⟩

/-- Settles O29: each writes the sum or difference of two words, whatever it is. -/
theorem unsignedAddSubResult : Obligations.UnsignedAddSubResult := by
  intro rd rs1 rs2 imm s a b
  refine ⟨rfl, rfl, rfl, rfl, ?addu, ?addui, ?subu, ?subui⟩
  case addu => exact .of_setR rfl
  case addui => exact toNat_zext imm ▸ .of_setR rfl
  case subu => exact sub_eq_ofInt_toNat .. ▸ .of_setR rfl
  case subui => exact toNat_zext imm ▸ sub_eq_ofInt_toNat (s.readR rs1) (zext imm) ▸ .of_setR rfl

/-- Settles O30: MULT tests the exact product, so that the word it writes reads as the product. -/
theorem multiplyResult : Obligations.MultiplyResult := by
  intro rd rs1 rs2 s a b
  refine ⟨rfl, rfl, fun hout => ?trap, fun hlow hhigh => ?product, ?unsigned⟩
  case trap => exact .of_raise (exec_mult_of_outside (outsideSigned_eq_true.mpr hout))
  case product =>
    have hin := outsideSigned_eq_false.mpr ⟨hlow, hhigh⟩
    exact ⟨_, toInt_ofInt_of_inside hin, .of_setF (exec_mult_of_inside hin)⟩
  case unsigned => exact ⟨_, BitVec.toNat_ofNat .., .of_setF rfl⟩

/-- Settles O31: the tests of R110 and R111 in order, and past them the quotient fits in a word. -/
theorem divideResult : Obligations.DivideResult := by
  intro rd rs1 rs2 s n d
  refine ⟨rfl, rfl, fun h0 => ?zero, fun hn hd => ?overflow, fun hne hfit => ?quotient, fun hne => ?unsigned⟩
  case zero => exact ⟨.of_raise (exec_div_of_zero h0), .of_raise (exec_divu_of_zero h0)⟩
  case overflow => exact .of_raise (exec_div_of_overflows (divOverflows_eq_true.mpr ⟨hn, hd⟩))
  case quotient =>
    have hno : divOverflows n d = false := Bool.eq_false_iff.mpr (mt divOverflows_eq_true.mp hfit)
    exact ⟨_, toInt_ofInt_tdiv hno, .of_setF (exec_div_of_not_overflows hne hno)⟩
  case unsigned =>
    have hlt : n.toNat / d.toNat < 2 ^ 32 := (Nat.div_le_self ..).trans_lt n.isLt
    exact ⟨_, (BitVec.toNat_ofNat ..).trans (Nat.mod_eq_of_lt hlt), .of_setF (exec_divu_of_ne_zero hne)⟩

/-- Settles O32: each writes its operation on the two words read. -/
theorem logicalResult : Obligations.LogicalResult :=
  fun _ _ _ _ => ⟨rfl, rfl, rfl, .of_setR rfl, .of_setR rfl, .of_setR rfl⟩

/-- Settles O33: the register is its two halves, and the upper half of the extended immediate is zero. -/
theorem logicalImmediateResult : Obligations.LogicalImmediateResult := by
  intro rd rs1 imm s hi lo
  have hread : s.readR rs1 = (hi ++ lo : Word) := (BitVec.extractLsb'_append_extractLsb' (len := 16)).symm
  refine ⟨rfl, rfl, rfl, rfl, ?andi, ?ori, ?xori, .of_setR rfl⟩
  case andi => exact append_and_zext hi lo imm ▸ hread ▸ .of_setR rfl
  case ori => exact append_or_zext hi lo imm ▸ hread ▸ .of_setR rfl
  case xori => exact append_xor_zext hi lo imm ▸ hread ▸ .of_setR rfl

/-- Settles O34: the amount is the low five bits of the register, and a shift by it multiplies or divides. -/
theorem shiftResult : Obligations.ShiftResult := by
  intro rd rs1 rs2 s a n
  have hn : n = shiftAmount (s.readR rs2) := (shiftAmount_eq_mod _).symm
  rw [hn, ← shiftLeft_eq_ofNat, ← ushiftRight_eq_ofNat, ← sshiftRight_eq_ofInt]
  exact ⟨rfl, rfl, rfl, .of_setR rfl, .of_setR rfl, .of_setR rfl⟩

/-- Settles O35: the shifts of O34 by the low five bits of the immediate. -/
theorem shiftImmediateResult : Obligations.ShiftImmediateResult := by
  intro rd rs1 imm s a n
  have hn : n = shiftAmountImm imm := (shiftAmountImm_eq_mod imm).symm
  rw [hn, ← shiftLeft_eq_ofNat, ← ushiftRight_eq_ofNat, ← sshiftRight_eq_ofInt]
  exact ⟨rfl, rfl, rfl, .of_setR rfl, .of_setR rfl, .of_setR rfl⟩

/-- Settles O36: each condition is a comparison of the two words read as signed integers, and two words that read as one
integer are the same. -/
theorem setConditionalResult : Obligations.SetConditionalResult := by
  intro rd rs1 rs2 s a b
  refine ⟨rfl, rfl, rfl, rfl, rfl, rfl, ?slt, ?sgt, ?sle, ?sge, ?seq, ?sne⟩
  case slt => exact .of_setCond rfl (Cond.holdsSigned_lt a b)
  case sgt => exact .of_setCond rfl (Cond.holdsSigned_gt a b)
  case sle => exact .of_setCond rfl (Cond.holdsSigned_le a b)
  case sge => exact .of_setCond rfl (Cond.holdsSigned_ge a b)
  case seq => exact .of_setCond rfl ((Cond.holdsSigned_eq a b).trans BitVec.toInt_inj)
  case sne => exact .of_setCond_not rfl ((Cond.holdsSigned_ne a b).trans (not_congr BitVec.toInt_inj))

/-- Settles O37: the conditions of O36, with an operand that reads as the signed immediate. -/
theorem setConditionalImmediateResult : Obligations.SetConditionalImmediateResult := by
  intro rd rs1 imm s a
  rw [← toInt_sext imm]
  refine ⟨rfl, rfl, rfl, rfl, rfl, rfl, ?slti, ?sgti, ?slei, ?sgei, ?seqi, ?snei⟩
  case slti => exact .of_setCond rfl (Cond.holdsSigned_lt a (sext imm))
  case sgti => exact .of_setCond rfl (Cond.holdsSigned_gt a (sext imm))
  case slei => exact .of_setCond rfl (Cond.holdsSigned_le a (sext imm))
  case sgei => exact .of_setCond rfl (Cond.holdsSigned_ge a (sext imm))
  case seqi => exact .of_setCond rfl (Cond.holdsSigned_eq a (sext imm))
  case snei => exact .of_setCond_not rfl (Cond.holdsSigned_ne a (sext imm))
end

section
/-! SUPPORT. The proofs of the statements of spec/42_control.md: branches, jumps with and without a link, TRAP and RFE. -/

namespace Sys2Proof.Machine

variable {i : Instr} {s : State}

/-! ## Jumps and branches -/

theorem Answers.of_jump {target : Word} (h : exec i s = .next (s.jump target)) : Answers i s (JumpResult s · target) :=
  ⟨_, h, rfl, fun _ => rfl, fun _ => rfl, rfl, ⟨rfl, rfl, rfl, rfl⟩, ⟨fun _ => rfl, rfl⟩, rfl, rfl⟩

/-- A branch is a jump in either case: not taken, to the next instruction (42_control.md R150). -/
theorem State.branchIf_eq_jump (s : State) (taken : Bool) (imm : Half) :
    s.branchIf taken imm = .next (s.jump (if taken then branchTarget s.pc imm else nextPc s.pc)) := by
  cases taken with
  | true => rfl
  | false => rfl

section
variable {b : Bool} {imm : Half} {p : Prop} [Decidable p]

/-- A branch goes to its target where its condition holds. -/
theorem Answers.of_branchIf (h : exec i s = s.branchIf b imm) (hp : b = true ↔ p) :
    Answers i s (JumpResult s · (if p then s.pc + 4#32 + imm.signExtend 32 else s.pc + 4#32)) := by
  simp only [← hp]
  exact .of_jump (h.trans (s.branchIf_eq_jump b imm))

/-- The same of a condition that is stated by when it fails. -/
theorem Answers.of_branchIf_not (h : exec i s = s.branchIf b imm) (hp : b = true ↔ ¬ p) :
    Answers i s (JumpResult s · (if p then s.pc + 4#32 else s.pc + 4#32 + imm.signExtend 32)) := by
  simpa only [ite_not] using Answers.of_branchIf h hp

end

/-! ## The link -/

/-- The link is in R31, which is not R0, and every other GPR reads as before (42_control.md R157). -/
theorem State.readR_link (s : State) (j : GReg) :
    s.link.readR j = if j = 31#5 then s.pc + 4#32 else s.readR j := by
  rw [State.link, State.readR_writeR]
  by_cases h0 : j = 0#5
  · simp [h0]
  · rw [if_neg h0, nextPc]

theorem Answers.of_link {target : Word} (h : exec i s = .next (s.link.jump target)) :
    Answers i s (LinkResult s · target) := by
  refine ⟨_, h, rfl, fun j => ?gprs, fun j => ?_, ?_, ?_, ?_, ?_, ?_⟩
  case gprs => exact (State.readR_jump ..).trans (s.readR_link j)
  all_goals simp [State.link, SameTrapState, SameMemory]

/-! ## Trap entry and return -/

/-- RFE restores `pc` and the mode, and nothing else (42_control.md R160). -/
theorem State.returnFromException_result (s : State) : ReturnResult s s.returnFromException :=
  ⟨rfl, rfl, rfl, rfl, rfl, fun _ => rfl, fun _ => rfl, rfl, ⟨fun _ => rfl, rfl⟩, rfl, rfl⟩

/-- In `system` mode RFE returns (42_control.md R160). -/
theorem exec_rfe_of_system (h : s.mode = .system) : exec .rfe s = .next s.returnFromException :=
  State.privileged_of_system h _

end Sys2Proof.Machine

open Sys2Proof Sys2Proof.Machine

/-- Settles O39: the two branches test one word, and BNEZ takes its branch where BEQZ does not. -/
theorem branchOnGprResult : Obligations.BranchOnGprResult := by
  intro rs1 imm s target
  refine ⟨rfl, rfl, ?beqz, ?bnez⟩
  case beqz => exact .of_branchIf rfl beq_iff_eq
  case bnez => exact .of_branchIf_not rfl bne_iff_ne

/-- Settles O40: the two branches test the comparison bit, which no jump writes. -/
theorem branchOnFlagResult : Obligations.BranchOnFlagResult := by
  intro imm s target
  refine ⟨rfl, rfl, ?bfpt, ?bfpf⟩
  case bfpt => exact .of_branchIf rfl Iff.rfl
  case bfpf => exact .of_branchIf_not rfl Bool.not_iff_not

/-- Settles O12: TRAP is trap entry in either mode, and of the causes Trap alone resumes at `pc + 4`. -/
theorem trapInstructionEntersSystem : Obligations.TrapInstructionEntersSystem := by
  intro off s
  obtain ⟨t, ht, hres⟩ : Answers (.trap off) s (TrapResult s · .trap (off.zeroExtend 32)) := .of_raise rfl
  obtain ⟨hiar, hecr, hedr, hmode, hpc, -⟩ := id hres
  exact ⟨rfl, t, ht, hres, hiar, hecr, hedr, hmode, hpc⟩

/-- Settles O13: the guard of RFE tests the mode, and past it RFE is the return. -/
theorem rfeReturnsOrTraps : Obligations.RfeReturnsOrTraps := by
  intro s
  refine ⟨rfl, fun hsys => ?system, fun huser => ?user⟩
  case system => exact ⟨_, exec_rfe_of_system hsys, s.returnFromException_result⟩
  case user => exact .of_privileged_user ⟨_, rfl⟩ huser

/-- Settles O41: each jump is to its target, JAL and JALR from the state with the link; JALR reads its register in the
state before the link. -/
theorem jumpAndLinkResult : Obligations.JumpAndLinkResult := by
  intro off rs1 s target
  exact ⟨rfl, rfl, rfl, rfl, .of_jump rfl, .of_jump rfl, .of_link rfl, .of_link rfl⟩
end

section
/-! SUPPORT. The proofs of the statements of spec/43_floating_point.md about the arithmetic, the conversions that round
or truncate, and the compares. -/

namespace Sys2Proof.Machine

variable {i : Instr} {s : State}

/-! ## The guard on register pairs -/

/-- A well-formed instruction with DP operands runs as it would without the guard (30_encoding.md R60). -/
theorem exec_of_wellFormed {k : Result} (h : exec i s = s.withPairs i k) (hi : i.wellFormed = true) : exec i s = k :=
  h.trans (State.withPairs_of_wellFormed hi k)

/-! ## Conversion from and to integers -/

/-- The sign bit of a word is the sign of the number that CVTI2F and CVTI2D convert (43_floating_point.md R186). -/
theorem FloatValue.ofInt_toInt (v : Word) : FloatValue.ofInt v.toInt = .finite v.msb v.toInt.natAbs 1 := by
  rw [FloatValue.ofInt, BitVec.msb_eq_toInt]

/-- Truncation keeps the signed integer part `k` where that is a signed word (43_floating_point.md R183). -/
theorem FloatValue.truncate_finite {u : Bool} {n d : Nat} {k : Int}
    (hk : k = (if u then -1 else 1) * ((n / d : Nat) : Int)) :
    (FloatValue.finite u n d).truncate = if outsideSigned k then none else some k := by
  subst hk
  cases u with
  | true => simp only [FloatValue.truncate, if_true, neg_one_mul]
  | false => simp only [FloatValue.truncate, Bool.false_eq_true, if_false, one_mul]

/-! ## Conditions of a comparison (43_floating_point.md R188) -/

section
variable (o : Option Ordering)

theorem Cond.holds_lt : Cond.lt.holds o = decide (o = some .lt) := beq_eq_decide o _

theorem Cond.holds_gt : Cond.gt.holds o = decide (o = some .gt) := beq_eq_decide o _

theorem Cond.holds_le : Cond.le.holds o = decide (o = some .lt ∨ o = some .eq) := by
  rw [Cond.holds, beq_eq_decide, beq_eq_decide, Bool.decide_or]

theorem Cond.holds_ge : Cond.ge.holds o = decide (o = some .gt ∨ o = some .eq) := by
  rw [Cond.holds, beq_eq_decide, beq_eq_decide, Bool.decide_or]

theorem Cond.holds_eq : Cond.eq.holds o = decide (o = some .eq) := beq_eq_decide o _

theorem Cond.holds_ne : Cond.ne.holds o = decide (o ≠ some .eq) := by
  rw [Cond.holds, bne, beq_eq_decide, decide_not]

end

/-- A compare writes whether its condition holds, however that is said. -/
theorem Answers.of_setCompare_eq {c : Cond} {x y : FloatValue} {b : Bool} (h : exec i s = s.setCompare c x y)
    (hb : c.holds (x.compare y) = b) : Answers i s (FlagResult s · b) :=
  hb ▸ .of_setCompare h

end Sys2Proof.Machine

open Sys2Proof Sys2Proof.Machine

/-- Settles O43: the guard asks for three even registers, and past it each writes the double-precision result of its exact
operation. -/
theorem doublePrecisionResult : Obligations.DoublePrecisionResult := by
  intro rd rs1 rs2 s x y
  refine ⟨rfl, rfl, rfl, rfl, fun i z hi => ?_⟩
  obtain ⟨hexec, hwf⟩ : exec i s = s.withPairs i (s.setDp rd z) ∧
      i.wellFormed = (FReg.isPair rd && FReg.isPair rs1 && FReg.isPair rs2) := by
    obtain ⟨rfl, rfl⟩ | ⟨rfl, rfl⟩ | ⟨rfl, rfl⟩ | ⟨rfl, rfl⟩ := hi <;> exact ⟨rfl, rfl⟩
  refine ⟨fun hodd => ?odd, fun hrd hrs1 hrs2 => ?even⟩
  case odd =>
    refine .of_not_wellFormed hexec ?_
    rwa [hwf, Bool.and_eq_false_iff, Bool.and_eq_false_iff, FReg.isPair_eq_false, FReg.isPair_eq_false,
      FReg.isPair_eq_false, or_assoc]
  case even =>
    refine Answers.of_setDp (exec_of_wellFormed hexec ?_)
    rw [hwf, FReg.isPair_eq_true.mpr hrd, FReg.isPair_eq_true.mpr hrs1, FReg.isPair_eq_true.mpr hrs2, Bool.and_self,
      Bool.and_self]

/-- Settles O42: each writes the single-precision result of its exact operation. -/
theorem singlePrecisionResult : Obligations.SinglePrecisionResult := by
  intro rd rs1 rs2 s x y
  refine ⟨rfl, rfl, rfl, rfl, fun i z hi => Answers.of_setSp ?_⟩
  obtain ⟨rfl, rfl⟩ | ⟨rfl, rfl⟩ | ⟨rfl, rfl⟩ | ⟨rfl, rfl⟩ := hi <;> rfl

/-- Settles O49: both write a single-precision result, and the number of an integer is finite, so that it has a
rounding. -/
theorem convertToSingleRounds : Obligations.ConvertToSingleRounds := by
  intro rd rs1 s i x
  refine ⟨rfl, rfl, fun hodd => ?odd, fun heven => ?even, ?integer⟩
  case odd => exact .of_not_wellFormed rfl (FReg.isPair_eq_false.mpr hodd)
  case even => exact Answers.of_setSp (exec_of_wellFormed rfl (FReg.isPair_eq_true.mpr heven))
  case integer =>
    have hexec : exec (.cvti2f rd rs1) s = s.setSp rd (.finite (s.readF rs1).msb (s.readF rs1).toInt.natAbs 1) :=
      FloatValue.ofInt_toInt (s.readF rs1) ▸ rfl
    obtain ⟨hrounded, -⟩ := Answers.of_setSp hexec
    exact ⟨_, rnd32_finite .., hrounded _ (rnd32_finite ..)⟩

/-- Settles O50: both write a truncated number, which is the integer part exactly where a word can read as it. -/
theorem convertToIntegerTruncates : Obligations.ConvertToIntegerTruncates := by
  intro rd rs1 s i x
  refine ⟨rfl, rfl, fun hodd => .of_not_wellFormed rfl (FReg.isPair_eq_false.mpr hodd), fun hi => ?_⟩
  have hexec : exec i s = s.setTruncated rd x := by
    obtain ⟨rfl, rfl⟩ | ⟨heven, rfl, rfl⟩ := hi
    · rfl
    · exact exec_of_wellFormed rfl (FReg.isPair_eq_true.mpr heven)
  obtain ⟨hword, hfree⟩ := Answers.of_setTruncated hexec
  refine ⟨fun k u n d hx hk => ?finite, fun hx => hfree ?notFinite⟩
  case finite =>
    have htrunc := hx ▸ FloatValue.truncate_finite hk
    refine ⟨fun hlow hhigh => ?inside, fun hout => hfree ?outside⟩
    case inside =>
      have hin := outsideSigned_eq_false.mpr ⟨hlow, hhigh⟩
      exact ⟨_, toInt_ofInt_of_inside hin, hword k (htrunc.trans (if_neg (ne_true_of_eq_false hin)))⟩
    case outside => exact htrunc.trans (if_pos (outsideSigned_eq_true.mpr hout))
  case notFinite => obtain rfl | ⟨u, rfl⟩ := hx <;> rfl

/-- Settles O51: each writes its condition of how the two numbers compare. -/
theorem compareSingleResult : Obligations.CompareSingleResult := by
  intro rs1 rs2 s o
  refine ⟨rfl, rfl, rfl, rfl, rfl, rfl, ?ltf, ?gtf, ?lef, ?gef, ?eqf, ?nef⟩
  case ltf => exact .of_setCompare_eq rfl (Cond.holds_lt o)
  case gtf => exact .of_setCompare_eq rfl (Cond.holds_gt o)
  case lef => exact .of_setCompare_eq rfl (Cond.holds_le o)
  case gef => exact .of_setCompare_eq rfl (Cond.holds_ge o)
  case eqf => exact .of_setCompare_eq rfl (Cond.holds_eq o)
  case nef => exact .of_setCompare_eq rfl (Cond.holds_ne o)

/-- Settles O52: the guard asks for two even registers, and past it each is the compare of O51 on the two pairs. -/
theorem compareDoubleResult : Obligations.CompareDoubleResult := by
  intro rs1 rs2 s o
  refine ⟨rfl, rfl, rfl, rfl, rfl, rfl, fun hodd i hi => ?odd, fun hrs1 hrs2 => ?even⟩
  case odd =>
    obtain ⟨k, hexec, hwf⟩ : ∃ k, exec i s = s.withPairs i k ∧
        i.wellFormed = (FReg.isPair rs1 && FReg.isPair rs2) := by
      obtain rfl | rfl | rfl | rfl | rfl | rfl := hi <;> exact ⟨_, rfl, rfl⟩
    refine .of_not_wellFormed hexec ?_
    rwa [hwf, Bool.and_eq_false_iff, FReg.isPair_eq_false, FReg.isPair_eq_false]
  case even =>
    have hwf : (FReg.isPair rs1 && FReg.isPair rs2) = true := by
      rw [FReg.isPair_eq_true.mpr hrs1, FReg.isPair_eq_true.mpr hrs2, Bool.and_self]
    refine ⟨?ltd, ?gtd, ?led, ?ged, ?eqd, ?ned⟩
    case ltd => exact .of_setCompare_eq (exec_of_wellFormed rfl hwf) (Cond.holds_lt o)
    case gtd => exact .of_setCompare_eq (exec_of_wellFormed rfl hwf) (Cond.holds_gt o)
    case led => exact .of_setCompare_eq (exec_of_wellFormed rfl hwf) (Cond.holds_le o)
    case ged => exact .of_setCompare_eq (exec_of_wellFormed rfl hwf) (Cond.holds_ge o)
    case eqd => exact .of_setCompare_eq (exec_of_wellFormed rfl hwf) (Cond.holds_eq o)
    case ned => exact .of_setCompare_eq (exec_of_wellFormed rfl hwf) (Cond.holds_ne o)
end

section
/-! SUPPORT. The proof of the statement of spec/60_exceptions.md about trap entry. -/

open Sys2Proof Sys2Proof.Machine

/-- Settles O11: the entry is the law of `State.takeException` (R214), and each code is a row of the table of causes
(R211). -/
theorem trapEntryWritesFiveThings : Obligations.TrapEntryWritesFiveThings := by
  intro s c info
  exact ⟨s.takeException_result c info, rfl, rfl, rfl, rfl, rfl, rfl, rfl, rfl, rfl, rfl⟩
end

section
/-! SUPPORT. The proofs of the statements of spec/30_encoding.md about the decoder and the encoder: the opcode and the
function of a word decide its row, and a row builds from a word the one instruction whose encoding the word is. -/

namespace Sys2Proof

/-! ## Opcode and function (30_encoding.md R56, R59) -/

/-- The opcode, bits 31:26, of every format. -/
def Field.opcode (w : Word) : BitVec 6 := w.extractLsb' 26 6

/-- The function, bits 10:0, of the R format. -/
def Field.func (w : Word) : BitVec 11 := w.extractLsb' 0 11

section
variable (op : BitVec 6) (rs1 rs2 rd : BitVec 5) (imm : Half) (func : BitVec 11) (off : BitVec 26)

@[simp] theorem Field.opcode_encodeI : Field.opcode (encodeI op rs1 rd imm) = op := by
  unfold Field.opcode encodeI
  rw [BitVec.extractLsb'_append_eq_of_le (by decide), BitVec.extractLsb'_append_eq_of_le (by decide),
    BitVec.extractLsb'_append_eq_of_le (by decide), BitVec.extractLsb'_eq_self]

@[simp] theorem Field.opcode_encodeR : Field.opcode (encodeR op rs1 rs2 rd func) = op := by
  unfold Field.opcode encodeR
  rw [BitVec.extractLsb'_append_eq_of_le (by decide), BitVec.extractLsb'_append_eq_of_le (by decide),
    BitVec.extractLsb'_append_eq_of_le (by decide), BitVec.extractLsb'_append_eq_of_le (by decide),
    BitVec.extractLsb'_eq_self]

@[simp] theorem Field.func_encodeR : Field.func (encodeR op rs1 rs2 rd func) = func := by
  unfold Field.func encodeR
  rw [BitVec.extractLsb'_append_eq_of_add_le (by decide), BitVec.extractLsb'_eq_self]

@[simp] theorem Field.opcode_encodeJ : Field.opcode (encodeJ op off) = op := by
  unfold Field.opcode encodeJ
  rw [BitVec.extractLsb'_append_eq_of_le (by decide), BitVec.extractLsb'_eq_self]

end

/-- What the opcode maps look up: the opcode, and for the opcodes 0 and 1 the function too. -/
def opcodeKey (w : Word) : BitVec 6 × BitVec 11 :=
  (Field.opcode w, if Field.opcode w = 0 ∨ Field.opcode w = 1 then Field.func w else 0)

/-- No two rows of the table have one opcode and function (30_encoding.md R57). -/
theorem opcodeTable_keys_nodup : (opcodeTable.map fun r => opcodeKey r.pattern).Nodup := by
  decide

/-- Every mask tests the opcode, and the function where the opcode map says that there is one. -/
theorem opcodeTable_masks : ∀ r ∈ opcodeTable, Field.opcode r.mask = 0x3F#6 ∧
    (Field.opcode r.pattern = 0 ∨ Field.opcode r.pattern = 1 → Field.func r.mask = 0x7FF#11) := by
  decide

theorem Row.matchesWord_eq_true {r : Row} {w : Word} : r.matchesWord w = true ↔ w &&& r.mask = r.pattern :=
  beq_iff_eq

/-- A word that matches a row has its opcode and function. -/
theorem Row.opcodeKey_of_matches {r : Row} {w : Word} (hr : r ∈ opcodeTable) (h : r.matchesWord w = true) :
    opcodeKey w = opcodeKey r.pattern := by
  obtain ⟨hop, hfunc⟩ := opcodeTable_masks r hr
  have hw := Row.matchesWord_eq_true.mp h
  have hopcode : Field.opcode w = Field.opcode r.pattern :=
    calc Field.opcode w
      _ = Field.opcode w &&& Field.opcode r.mask := by rw [hop]; exact (BitVec.and_allOnes).symm
      _ = Field.opcode r.pattern := by rw [← hw]; exact BitVec.extractLsb'_and.symm
  unfold opcodeKey
  rw [hopcode]
  split
  · rename_i h01
    have hfuncs : Field.func w = Field.func r.pattern :=
      calc Field.func w
        _ = Field.func w &&& Field.func r.mask := by rw [hfunc h01]; exact (BitVec.and_allOnes).symm
        _ = Field.func r.pattern := by rw [← hw]; exact BitVec.extractLsb'_and.symm
    rw [hfuncs]
  · rfl

/-- Where a function tells all entries of a list apart, entries with one value are at one position. -/
theorem position_eq_of_nodup_map {α β : Type} {l : List α} {f : α → β} (h : (l.map f).Nodup) {j k : Nat} {q r : α}
    (hq : l[j]? = some q) (hr : l[k]? = some r) (hqr : f q = f r) : j = k := by
  have hj : j < (l.map f).length := by
    rw [List.length_map]
    exact (List.getElem?_eq_some_iff.mp hq).choose
  exact (List.getElem?_inj hj h).mp (by simp [hq, hr, hqr])

/-- The row that a word matches is the one with the opcode and function of the word. -/
theorem opcodeTable_position_eq {j k : Nat} {q r : Row} {w : Word} (hj : opcodeTable[j]? = some q)
    (hk : opcodeTable[k]? = some r) (hq : q.matchesWord w = true) (hr : opcodeKey w = opcodeKey r.pattern) : j = k :=
  position_eq_of_nodup_map opcodeTable_keys_nodup hj hk
    ((q.opcodeKey_of_matches (List.mem_of_getElem? hj) hq).symm.trans hr)

/-! ## Decoding -/

/-- What it means that a word decodes: a row of the table matches it and builds the instruction. -/
theorem exists_row_of_decode {w : Word} {i : Instr} (h : decode w = .ok i) :
    ∃ (k : Nat) (r : Row), opcodeTable[k]? = some r ∧ r.matchesWord w = true ∧ r.build w = i := by
  unfold decode at h
  split at h
  · rename_i r hr
    obtain ⟨k, hk⟩ := List.mem_iff_getElem?.mp (List.mem_of_find?_eq_some hr)
    exact ⟨k, r, hk, List.find?_some (p := fun q : Row => q.matchesWord w) hr, Except.ok.inj h⟩
  · cases h

/-- A word that matches a row decodes to what that row builds: no other row matches it. -/
theorem decode_of_row {k : Nat} {r : Row} {w : Word} (hk : opcodeTable[k]? = some r) (h : r.matchesWord w = true) :
    decode w = .ok (r.build w) := by
  have hr := List.mem_of_getElem? hk
  cases hd : decode w with
  | ok i =>
    obtain ⟨j, q, hj, hq, rfl⟩ := exists_row_of_decode hd
    obtain rfl := opcodeTable_position_eq hj hk hq (r.opcodeKey_of_matches hr h)
    obtain rfl := Option.some.inj (hj.symm.trans hk)
    rfl
  | error e =>
    unfold decode at hd
    split at hd
    · cases hd
    · rename_i hnone
      exact absurd h (List.find?_eq_none.mp hnone r hr)

/-- A word that no row decodes is reserved (30_encoding.md R62). -/
theorem decode_eq_reserved {w : Word} (h : ∀ i, decode w ≠ .ok i) : decode w = .error (.reservedEncoding w) := by
  unfold decode at h ⊢
  split
  · rename_i r hr
    exact absurd (by rw [hr]) (h (r.build w))
  · rfl

/-- The opcode and the function of a word in the I format whose opcode has no functions. -/
theorem opcodeKey_encodeI {op : BitVec 6} (rs1 rd : BitVec 5) (imm : Half) (h0 : op ≠ 0#6) (h1 : op ≠ 1#6) :
    opcodeKey (encodeI op rs1 rd imm) = opcodeKey (encodeI op 0 0 0) := by
  simp [opcodeKey, h0, h1]

/-- The opcode and the function of a word in the R format. -/
theorem opcodeKey_encodeR (op : BitVec 6) (rs1 rs2 rd : BitVec 5) (func : BitVec 11) :
    opcodeKey (encodeR op rs1 rs2 rd func) = opcodeKey (encodeR op 0 0 0 func) := by
  simp [opcodeKey]

/-! ## The word that a row builds an instruction from -/

/-- From each word it matches a row builds a well-formed instruction whose encoding is that word. -/
def Row.Faithful (r : Row) : Prop :=
  ∀ w, r.matchesWord w = true → encode (r.build w) = w ∧ (r.build w).wellFormed = true

/-- Every word can be read in the I format. -/
theorem exists_encodeI (w : Word) : ∃ op rs1 rd imm, w = encodeI op rs1 rd imm := by
  refine ⟨w.extractLsb' 26 6, w.extractLsb' 21 5, w.extractLsb' 16 5, w.extractLsb' 0 16, ?_⟩
  unfold encodeI
  rw [BitVec.extractLsb'_append_extractLsb'_eq_extractLsb' (by rfl),
    BitVec.extractLsb'_append_extractLsb'_eq_extractLsb' (by rfl),
    BitVec.extractLsb'_append_extractLsb'_eq_extractLsb' (by rfl), BitVec.extractLsb'_eq_self]

/-- Every word can be read in the R format. -/
theorem exists_encodeR (w : Word) : ∃ op rs1 rs2 rd func, w = encodeR op rs1 rs2 rd func := by
  refine ⟨w.extractLsb' 26 6, w.extractLsb' 21 5, w.extractLsb' 16 5, w.extractLsb' 11 5, w.extractLsb' 0 11, ?_⟩
  unfold encodeR
  rw [BitVec.extractLsb'_append_extractLsb'_eq_extractLsb' (by rfl),
    BitVec.extractLsb'_append_extractLsb'_eq_extractLsb' (by rfl),
    BitVec.extractLsb'_append_extractLsb'_eq_extractLsb' (by rfl),
    BitVec.extractLsb'_append_extractLsb'_eq_extractLsb' (by rfl), BitVec.extractLsb'_eq_self]

/-- Every word can be read in the J format. -/
theorem exists_encodeJ (w : Word) : ∃ op off, w = encodeJ op off := by
  refine ⟨w.extractLsb' 26 6, w.extractLsb' 0 26, ?_⟩
  unfold encodeJ
  rw [BitVec.extractLsb'_append_extractLsb'_eq_extractLsb' (by rfl), BitVec.extractLsb'_eq_self]

/-- A register number names a pair exactly when a mask that tests its low bit finds 0 (30_encoding.md R60). -/
theorem FReg.and_one_eq_zero {r : FReg} : r &&& 1#5 = 0#5 ↔ r.isPair = true := by
  revert r
  decide

/-- A must-be-zero mask of a whole field tests every bit of it. -/
theorem and_ones5 (x : BitVec 5) : x &&& 31#5 = x := BitVec.and_allOnes

theorem and_ones16 (x : BitVec 16) : x &&& 65535#16 = x := BitVec.and_allOnes

theorem and_ones26 (x : BitVec 26) : x &&& 0x3FFFFFF#26 = x := BitVec.and_allOnes

/-- A row in the I format is faithful when it is so on the words with its opcode whose must-be-zero bits are zero. -/
theorem Row.Faithful.of_encodeI {r : Row} (op : BitVec 6) (b c : BitVec 5) (d : Half)
    (hm : r.mask = encodeI 0x3F b c d := by rfl) (hp : r.pattern = encodeI op 0 0 0 := by rfl)
    (h : ∀ rs1 rd imm, rs1 &&& b = 0#5 → rd &&& c = 0#5 → imm &&& d = 0#16 →
      encode (r.build (encodeI op rs1 rd imm)) = encodeI op rs1 rd imm ∧
        (r.build (encodeI op rs1 rd imm)).wellFormed = true := by
      simp +contextual [encode, Instr.wellFormed, FReg.and_one_eq_zero, and_ones5, and_ones16, and_ones26]) :
    r.Faithful := by
  intro w hw
  obtain ⟨op', rs1, rd, imm, rfl⟩ := exists_encodeI w
  rw [Row.matchesWord_eq_true, hm, hp, encodeI_and] at hw
  have hop := congrArg Field.opcode hw
  have hrs1 := congrArg Field.rs1 hw
  have hrd := congrArg Field.rdI hw
  have himm := congrArg Field.imm hw
  simp only [Field.opcode_encodeI, Field.rs1_encodeI, Field.rdI_encodeI, Field.imm_encodeI] at hop hrs1 hrd himm
  obtain rfl : op' = op := BitVec.and_allOnes.symm.trans hop
  exact h _ _ _ hrs1 hrd himm

/-- A row in the R format is faithful when it is so on the words with its opcode and function whose must-be-zero bits
are zero. -/
theorem Row.Faithful.of_encodeR {r : Row} (op : BitVec 6) (func : BitVec 11) (b c d : BitVec 5)
    (hm : r.mask = encodeR 0x3F b c d 0x7FF := by rfl) (hp : r.pattern = encodeR op 0 0 0 func := by rfl)
    (h : ∀ rs1 rs2 rd, rs1 &&& b = 0#5 → rs2 &&& c = 0#5 → rd &&& d = 0#5 →
      encode (r.build (encodeR op rs1 rs2 rd func)) = encodeR op rs1 rs2 rd func ∧
        (r.build (encodeR op rs1 rs2 rd func)).wellFormed = true := by
      simp +contextual [encode, Instr.wellFormed, FReg.and_one_eq_zero, and_ones5, and_ones16, and_ones26]) :
    r.Faithful := by
  intro w hw
  obtain ⟨op', rs1, rs2, rd, func', rfl⟩ := exists_encodeR w
  rw [Row.matchesWord_eq_true, hm, hp, encodeR_and] at hw
  have hop := congrArg Field.opcode hw
  have hrs1 := congrArg Field.rs1 hw
  have hrs2 := congrArg Field.rs2 hw
  have hrd := congrArg Field.rdR hw
  have hfunc := congrArg Field.func hw
  simp only [Field.opcode_encodeR, Field.rs1_encodeR, Field.rs2_encodeR, Field.rdR_encodeR, Field.func_encodeR]
    at hop hrs1 hrs2 hrd hfunc
  obtain rfl : op' = op := BitVec.and_allOnes.symm.trans hop
  obtain rfl : func' = func := BitVec.and_allOnes.symm.trans hfunc
  exact h _ _ _ hrs1 hrs2 hrd

/-- A row in the J format is faithful when it is so on the words with its opcode whose must-be-zero bits are zero. -/
theorem Row.Faithful.of_encodeJ {r : Row} (op : BitVec 6) (b : BitVec 26)
    (hm : r.mask = encodeJ 0x3F b := by rfl) (hp : r.pattern = encodeJ op 0 := by rfl)
    (h : ∀ off, off &&& b = 0#26 →
      encode (r.build (encodeJ op off)) = encodeJ op off ∧ (r.build (encodeJ op off)).wellFormed = true := by
      simp +contextual [encode, Instr.wellFormed, FReg.and_one_eq_zero, and_ones5, and_ones16, and_ones26]) :
    r.Faithful := by
  intro w hw
  obtain ⟨op', off, rfl⟩ := exists_encodeJ w
  rw [Row.matchesWord_eq_true, hm, hp, encodeJ_and] at hw
  have hop := congrArg Field.opcode hw
  have hoff := congrArg Field.off hw
  simp only [Field.opcode_encodeJ, Field.off_encodeJ] at hop hoff
  obtain rfl : op' = op := BitVec.and_allOnes.symm.trans hop
  exact h _ hoff

theorem dataTransferRows_faithful : ∀ r ∈ dataTransferRows, r.Faithful := by
  simp only [dataTransferRows, List.forall_mem_cons, List.not_mem_nil, false_implies, implies_true, and_true]
  exact ⟨.of_encodeI 0x20 0 0 0, .of_encodeI 0x24 0 0 0, .of_encodeI 0x28 0 0 0, .of_encodeI 0x21 0 0 0,
    .of_encodeI 0x25 0 0 0, .of_encodeI 0x29 0 0 0, .of_encodeI 0x23 0 0 0, .of_encodeI 0x2B 0 0 0,
    .of_encodeI 0x26 0 0 0, .of_encodeI 0x27 0 1 0, .of_encodeI 0x2E 0 0 0, .of_encodeI 0x2F 0 1 0,
    .of_encodeR 0x00 0x30 0 0x1F 0, .of_encodeR 0x00 0x31 0 0x1F 0, .of_encodeR 0x00 0x32 0 0x1F 0,
    .of_encodeR 0x00 0x33 1 0x1F 1, .of_encodeR 0x00 0x34 0 0x1F 0, .of_encodeR 0x00 0x35 0 0x1F 0⟩

theorem arithmeticRows_faithful : ∀ r ∈ arithmeticRows, r.Faithful := by
  simp only [arithmeticRows, List.forall_mem_cons, List.not_mem_nil, false_implies, implies_true, and_true]
  exact ⟨.of_encodeR 0x00 0x20 0 0 0, .of_encodeI 0x08 0 0 0, .of_encodeR 0x00 0x21 0 0 0, .of_encodeI 0x09 0 0 0,
    .of_encodeR 0x00 0x22 0 0 0, .of_encodeI 0x0A 0 0 0, .of_encodeR 0x00 0x23 0 0 0, .of_encodeI 0x0B 0 0 0,
    .of_encodeR 0x01 0x0E 0 0 0, .of_encodeR 0x01 0x16 0 0 0, .of_encodeR 0x01 0x0F 0 0 0,
    .of_encodeR 0x01 0x17 0 0 0, .of_encodeR 0x00 0x24 0 0 0, .of_encodeI 0x0C 0 0 0, .of_encodeR 0x00 0x25 0 0 0,
    .of_encodeI 0x0D 0 0 0, .of_encodeR 0x00 0x26 0 0 0, .of_encodeI 0x0E 0 0 0, .of_encodeI 0x0F 0x1F 0 0,
    .of_encodeR 0x00 0x04 0 0 0, .of_encodeR 0x00 0x06 0 0 0, .of_encodeR 0x00 0x07 0 0 0, .of_encodeI 0x14 0 0 0,
    .of_encodeI 0x16 0 0 0, .of_encodeI 0x17 0 0 0, .of_encodeR 0x00 0x2A 0 0 0, .of_encodeR 0x00 0x2B 0 0 0,
    .of_encodeR 0x00 0x2C 0 0 0, .of_encodeR 0x00 0x2D 0 0 0, .of_encodeR 0x00 0x28 0 0 0,
    .of_encodeR 0x00 0x29 0 0 0, .of_encodeI 0x1A 0 0 0, .of_encodeI 0x1B 0 0 0, .of_encodeI 0x1C 0 0 0,
    .of_encodeI 0x1D 0 0 0, .of_encodeI 0x18 0 0 0, .of_encodeI 0x19 0 0 0⟩

theorem controlRows_faithful : ∀ r ∈ controlRows, r.Faithful := by
  simp only [controlRows, List.forall_mem_cons, List.not_mem_nil, false_implies, implies_true, and_true]
  exact ⟨.of_encodeI 0x04 0 0x1F 0, .of_encodeI 0x05 0 0x1F 0, .of_encodeI 0x06 0x1F 0x1F 0,
    .of_encodeI 0x07 0x1F 0x1F 0, .of_encodeJ 0x02 0, .of_encodeI 0x12 0 0x1F 0xFFFF, .of_encodeJ 0x03 0,
    .of_encodeI 0x13 0 0x1F 0xFFFF, .of_encodeJ 0x11 0, .of_encodeJ 0x10 0x3FFFFFF⟩

theorem floatingPointRows_faithful : ∀ r ∈ floatingPointRows, r.Faithful := by
  simp only [floatingPointRows, List.forall_mem_cons, List.not_mem_nil, false_implies, implies_true, and_true]
  exact ⟨.of_encodeR 0x01 0x04 1 1 1, .of_encodeR 0x01 0x00 0 0 0, .of_encodeR 0x01 0x05 1 1 1,
    .of_encodeR 0x01 0x01 0 0 0, .of_encodeR 0x01 0x06 1 1 1, .of_encodeR 0x01 0x02 0 0 0,
    .of_encodeR 0x01 0x07 1 1 1, .of_encodeR 0x01 0x03 0 0 0, .of_encodeR 0x01 0x08 0 0x1F 1,
    .of_encodeR 0x01 0x09 0 0x1F 0, .of_encodeR 0x01 0x0A 1 0x1F 0, .of_encodeR 0x01 0x0B 1 0x1F 0,
    .of_encodeR 0x01 0x0C 0 0x1F 0, .of_encodeR 0x01 0x0D 0 0x1F 1, .of_encodeR 0x01 0x1A 1 1 0x1F,
    .of_encodeR 0x01 0x1B 1 1 0x1F, .of_encodeR 0x01 0x1C 1 1 0x1F, .of_encodeR 0x01 0x1D 1 1 0x1F,
    .of_encodeR 0x01 0x18 1 1 0x1F, .of_encodeR 0x01 0x19 1 1 0x1F, .of_encodeR 0x01 0x12 0 0 0x1F,
    .of_encodeR 0x01 0x13 0 0 0x1F, .of_encodeR 0x01 0x14 0 0 0x1F, .of_encodeR 0x01 0x15 0 0 0x1F,
    .of_encodeR 0x01 0x10 0 0 0x1F, .of_encodeR 0x01 0x11 0 0 0x1F⟩

theorem opcodeTable_faithful : ∀ r ∈ opcodeTable, r.Faithful := by
  intro r hr
  simp only [opcodeTable, List.mem_append] at hr
  obtain ((hr | hr) | hr) | hr := hr
  · exact dataTransferRows_faithful r hr
  · exact arithmeticRows_faithful r hr
  · exact controlRows_faithful r hr
  · exact floatingPointRows_faithful r hr

/-! ## The row of an instruction -/

open Laws in
/-- The word of a well-formed instruction matches a row that builds it back. -/
theorem rowBuilds_of_wellFormed : ∀ i : Instr, FixedBits.Statement i
  | .lb rd rs1 imm => FixedBits.lb rd rs1 imm
  | .lbu rd rs1 imm => FixedBits.lbu rd rs1 imm
  | .sb rd rs1 imm => FixedBits.sb rd rs1 imm
  | .lh rd rs1 imm => FixedBits.lh rd rs1 imm
  | .lhu rd rs1 imm => FixedBits.lhu rd rs1 imm
  | .sh rd rs1 imm => FixedBits.sh rd rs1 imm
  | .lw rd rs1 imm => FixedBits.lw rd rs1 imm
  | .sw rd rs1 imm => FixedBits.sw rd rs1 imm
  | .lf rd rs1 imm => FixedBits.lf rd rs1 imm
  | .ld rd rs1 imm => FixedBits.ld rd rs1 imm
  | .sf rd rs1 imm => FixedBits.sf rd rs1 imm
  | .sd rd rs1 imm => FixedBits.sd rd rs1 imm
  | .movi2s rd rs1 => FixedBits.movi2s rd rs1
  | .movs2i rd rs1 => FixedBits.movs2i rd rs1
  | .movf rd rs1 => FixedBits.movf rd rs1
  | .movd rd rs1 => FixedBits.movd rd rs1
  | .movfp2i rd rs1 => FixedBits.movfp2i rd rs1
  | .movi2fp rd rs1 => FixedBits.movi2fp rd rs1
  | .add rd rs1 rs2 => FixedBits.add rd rs1 rs2
  | .addi rd rs1 imm => FixedBits.addi rd rs1 imm
  | .addu rd rs1 rs2 => FixedBits.addu rd rs1 rs2
  | .addui rd rs1 imm => FixedBits.addui rd rs1 imm
  | .sub rd rs1 rs2 => FixedBits.sub rd rs1 rs2
  | .subi rd rs1 imm => FixedBits.subi rd rs1 imm
  | .subu rd rs1 rs2 => FixedBits.subu rd rs1 rs2
  | .subui rd rs1 imm => FixedBits.subui rd rs1 imm
  | .mult rd rs1 rs2 => FixedBits.mult rd rs1 rs2
  | .multu rd rs1 rs2 => FixedBits.multu rd rs1 rs2
  | .div rd rs1 rs2 => FixedBits.div rd rs1 rs2
  | .divu rd rs1 rs2 => FixedBits.divu rd rs1 rs2
  | .and rd rs1 rs2 => FixedBits.and rd rs1 rs2
  | .andi rd rs1 imm => FixedBits.andi rd rs1 imm
  | .or rd rs1 rs2 => FixedBits.or rd rs1 rs2
  | .ori rd rs1 imm => FixedBits.ori rd rs1 imm
  | .xor rd rs1 rs2 => FixedBits.xor rd rs1 rs2
  | .xori rd rs1 imm => FixedBits.xori rd rs1 imm
  | .lhi rd imm => FixedBits.lhi rd imm
  | .sll rd rs1 rs2 => FixedBits.sll rd rs1 rs2
  | .srl rd rs1 rs2 => FixedBits.srl rd rs1 rs2
  | .sra rd rs1 rs2 => FixedBits.sra rd rs1 rs2
  | .slli rd rs1 imm => FixedBits.slli rd rs1 imm
  | .srli rd rs1 imm => FixedBits.srli rd rs1 imm
  | .srai rd rs1 imm => FixedBits.srai rd rs1 imm
  | .slt rd rs1 rs2 => FixedBits.slt rd rs1 rs2
  | .sgt rd rs1 rs2 => FixedBits.sgt rd rs1 rs2
  | .sle rd rs1 rs2 => FixedBits.sle rd rs1 rs2
  | .sge rd rs1 rs2 => FixedBits.sge rd rs1 rs2
  | .seq rd rs1 rs2 => FixedBits.seq rd rs1 rs2
  | .sne rd rs1 rs2 => FixedBits.sne rd rs1 rs2
  | .slti rd rs1 imm => FixedBits.slti rd rs1 imm
  | .sgti rd rs1 imm => FixedBits.sgti rd rs1 imm
  | .slei rd rs1 imm => FixedBits.slei rd rs1 imm
  | .sgei rd rs1 imm => FixedBits.sgei rd rs1 imm
  | .seqi rd rs1 imm => FixedBits.seqi rd rs1 imm
  | .snei rd rs1 imm => FixedBits.snei rd rs1 imm
  | .beqz rs1 imm => FixedBits.beqz rs1 imm
  | .bnez rs1 imm => FixedBits.bnez rs1 imm
  | .bfpt imm => FixedBits.bfpt imm
  | .bfpf imm => FixedBits.bfpf imm
  | .j off => FixedBits.j off
  | .jr rs1 => FixedBits.jr rs1
  | .jal off => FixedBits.jal off
  | .jalr rs1 => FixedBits.jalr rs1
  | .trap off => FixedBits.trap off
  | .rfe => FixedBits.rfe
  | .addd rd rs1 rs2 => FixedBits.addd rd rs1 rs2
  | .addf rd rs1 rs2 => FixedBits.addf rd rs1 rs2
  | .subd rd rs1 rs2 => FixedBits.subd rd rs1 rs2
  | .subf rd rs1 rs2 => FixedBits.subf rd rs1 rs2
  | .multd rd rs1 rs2 => FixedBits.multd rd rs1 rs2
  | .multf rd rs1 rs2 => FixedBits.multf rd rs1 rs2
  | .divd rd rs1 rs2 => FixedBits.divd rd rs1 rs2
  | .divf rd rs1 rs2 => FixedBits.divf rd rs1 rs2
  | .cvtf2d rd rs1 => FixedBits.cvtf2d rd rs1
  | .cvtf2i rd rs1 => FixedBits.cvtf2i rd rs1
  | .cvtd2f rd rs1 => FixedBits.cvtd2f rd rs1
  | .cvtd2i rd rs1 => FixedBits.cvtd2i rd rs1
  | .cvti2f rd rs1 => FixedBits.cvti2f rd rs1
  | .cvti2d rd rs1 => FixedBits.cvti2d rd rs1
  | .ltd rs1 rs2 => FixedBits.ltd rs1 rs2
  | .gtd rs1 rs2 => FixedBits.gtd rs1 rs2
  | .led rs1 rs2 => FixedBits.led rs1 rs2
  | .ged rs1 rs2 => FixedBits.ged rs1 rs2
  | .eqd rs1 rs2 => FixedBits.eqd rs1 rs2
  | .ned rs1 rs2 => FixedBits.ned rs1 rs2
  | .ltf rs1 rs2 => FixedBits.ltf rs1 rs2
  | .gtf rs1 rs2 => FixedBits.gtf rs1 rs2
  | .lef rs1 rs2 => FixedBits.lef rs1 rs2
  | .gef rs1 rs2 => FixedBits.gef rs1 rs2
  | .eqf rs1 rs2 => FixedBits.eqf rs1 rs2
  | .nef rs1 rs2 => FixedBits.nef rs1 rs2

/-- An instruction that is not well formed has the opcode and the function of a row that builds it back, although its
word does not match that row. -/
theorem exists_row_of_not_wellFormed {i : Instr} (h : i.wellFormed = false) :
    ∃ (k : Nat) (r : Row), opcodeTable[k]? = some r ∧ opcodeKey (encode i) = opcodeKey r.pattern ∧
      r.build (encode i) = i := by
  cases i with
  | ld _ _ _ => exact ⟨9, _, rfl, opcodeKey_encodeI _ _ _ (by decide) (by decide), by simp [encode]⟩
  | sd _ _ _ => exact ⟨11, _, rfl, opcodeKey_encodeI _ _ _ (by decide) (by decide), by simp [encode]⟩
  | movd _ _ => exact ⟨15, _, rfl, opcodeKey_encodeR .., by simp [encode]⟩
  | addd _ _ _ => exact ⟨65, _, rfl, opcodeKey_encodeR .., by simp [encode]⟩
  | subd _ _ _ => exact ⟨67, _, rfl, opcodeKey_encodeR .., by simp [encode]⟩
  | multd _ _ _ => exact ⟨69, _, rfl, opcodeKey_encodeR .., by simp [encode]⟩
  | divd _ _ _ => exact ⟨71, _, rfl, opcodeKey_encodeR .., by simp [encode]⟩
  | cvtf2d _ _ => exact ⟨73, _, rfl, opcodeKey_encodeR .., by simp [encode]⟩
  | cvtd2f _ _ => exact ⟨75, _, rfl, opcodeKey_encodeR .., by simp [encode]⟩
  | cvtd2i _ _ => exact ⟨76, _, rfl, opcodeKey_encodeR .., by simp [encode]⟩
  | cvti2d _ _ => exact ⟨78, _, rfl, opcodeKey_encodeR .., by simp [encode]⟩
  | ltd _ _ => exact ⟨79, _, rfl, opcodeKey_encodeR .., by simp [encode]⟩
  | gtd _ _ => exact ⟨80, _, rfl, opcodeKey_encodeR .., by simp [encode]⟩
  | led _ _ => exact ⟨81, _, rfl, opcodeKey_encodeR .., by simp [encode]⟩
  | ged _ _ => exact ⟨82, _, rfl, opcodeKey_encodeR .., by simp [encode]⟩
  | eqd _ _ => exact ⟨83, _, rfl, opcodeKey_encodeR .., by simp [encode]⟩
  | ned _ _ => exact ⟨84, _, rfl, opcodeKey_encodeR .., by simp [encode]⟩
  | _ => nomatch h

/-- An instruction that is not well formed is one with the guard on its DP operands. -/
theorem Machine.exec_eq_withPairs {i : Instr} (h : i.wellFormed = false) (s : Machine.State) :
    ∃ k, Machine.exec i s = s.withPairs i k := by
  cases i with
  | ld | sd | movd | addd | subd | multd | divd | cvtf2d | cvtd2f
  | cvtd2i | cvti2d | ltd | gtd | led | ged | eqd | ned =>
    exact ⟨_, rfl⟩
  | _ => nomatch h

end Sys2Proof

open Sys2Proof Sys2Proof.Machine

/-- Settles O1: the row that builds the instruction from its word matches it, and no other row does. -/
theorem decodeOfEncode : Obligations.DecodeOfEncode := by
  intro i hwf
  obtain ⟨k, r, hk, hmatch, hbuild⟩ := rowBuilds_of_wellFormed i hwf
  exact (decode_of_row hk hmatch).trans (congrArg _ hbuild)

/-- Settles O2: the row that matches the word is faithful. -/
theorem encodeOfDecode : Obligations.EncodeOfDecode := by
  intro w i hdecode
  obtain ⟨k, r, hk, hmatch, rfl⟩ := exists_row_of_decode hdecode
  exact opcodeTable_faithful r (List.mem_of_getElem? hk) w hmatch

/-- Settles O3: both rows have the opcode and the function of the word, which one row has. -/
theorem noWordMatchesTwoRows : Obligations.NoWordMatchesTwoRows := by
  intro w j k q r hj hk hq hr
  exact opcodeTable_position_eq hj hk hq (r.opcodeKey_of_matches (List.mem_of_getElem? hk) hr)

/-- Settles O4: a row that matched the word would be the instruction's own, which builds well-formed instructions
only. -/
theorem oddPairIsReserved : Obligations.OddPairIsReserved := by
  intro i s hodd
  refine ⟨decode_eq_reserved fun j hj => ?reserved, ?raises⟩
  case reserved =>
    obtain ⟨k, r, hk, hkey, hbuild⟩ := exists_row_of_not_wellFormed hodd
    obtain ⟨m, q, hm, hmatch, -⟩ := exists_row_of_decode hj
    obtain rfl := opcodeTable_position_eq hm hk hmatch hkey
    obtain rfl := Option.some.inj (hm.symm.trans hk)
    obtain ⟨-, hwf⟩ := opcodeTable_faithful q (List.mem_of_getElem? hk) _ hmatch
    rw [hbuild, hodd] at hwf
    exact absurd hwf (by decide)
  case raises =>
    obtain ⟨k, hexec⟩ := exec_eq_withPairs hodd s
    exact .of_not_wellFormed hexec hodd

/-- Settles O5: each word is the encoding of its instruction, and the opcode and the function of the last are those of
no row. -/
theorem sampleWordsDecode : Obligations.SampleWordsDecode := by
  refine ⟨?lw, ?add, ?j, ?addd, ?movi2s, ?rfe, ?zero⟩
  case lw => exact decodeOfEncode (.lw 1 2 0xFFFC) rfl
  case add => exact decodeOfEncode (.add 1 2 3) rfl
  case j => exact decodeOfEncode (.j 0x3FFFFF8) rfl
  case addd => exact decodeOfEncode (.addd 0 2 4) rfl
  case movi2s => exact decodeOfEncode (.movi2s 1 5) rfl
  case rfe => exact decodeOfEncode .rfe rfl
  case zero => rfl
end

section
/-! SUPPORT. The proofs of the statements about the whole machine: what a step can do is trap entry or an effect of the
instruction it fetched, and each statement is a case analysis over the effects. -/

namespace Sys2Proof.Machine

variable {i : Instr} {s t : State}

/-! ## What a step can do -/

/-- The bytes of a word joined from four bytes are those bytes (20_memory.md R30). -/
theorem extract_joinBytes_word (b0 b1 b2 b3 : Byte) :
    (joinBytes 32 [b0, b1, b2, b3]).extractLsb' 24 8 = b0 ∧ (joinBytes 32 [b0, b1, b2, b3]).extractLsb' 16 8 = b1 ∧
    (joinBytes 32 [b0, b1, b2, b3]).extractLsb' 8 8 = b2 ∧ (joinBytes 32 [b0, b1, b2, b3]).extractLsb' 0 8 = b3 := by
  rw [joinBytes_word]
  refine ⟨?byte0, ?byte1, ?byte2, ?byte3⟩
  case byte0 =>
    rw [BitVec.extractLsb'_append_eq_of_le (by decide), BitVec.extractLsb'_append_eq_of_le (by decide)]
    exact BitVec.extractLsb'_append_eq_left
  case byte1 =>
    rw [BitVec.extractLsb'_append_eq_of_le (by decide), BitVec.extractLsb'_append_eq_of_le (by decide)]
    exact BitVec.extractLsb'_append_eq_right
  case byte2 =>
    rw [BitVec.extractLsb'_append_eq_of_le (by decide)]
    exact BitVec.extractLsb'_append_eq_right
  case byte3 => exact BitVec.extractLsb'_append_eq_right

/-- A word that is fetched is the one that the four bytes at `pc` hold (20_memory.md R38). -/
theorem FetchesWord.of_fetch {w : Word} (h : s.fetch s.pc = .done w) : FetchesWord s w := by
  obtain ⟨haligned, hram, hstored, bs, hbs, rfl⟩ := State.fetch_eq_done.mp h
  obtain ⟨hlen, hread⟩ := Memory.readBytes_eq_some.mp hbs
  have hfit := toNat_add_le_of_aligned (by decide) haligned
  have hbyte (k : Nat) (hk : k < 4) : s.readByte (s.pc + BitVec.ofNat 32 k) = bs[k]? := by
    rw [State.readByte, toNat_add_ofNat (by omega), hread k hk]
  obtain ⟨b0, b1, b2, b3, rfl⟩ : ∃ b0 b1 b2 b3, bs = [b0, b1, b2, b3] := by
    match bs, hlen with
    | [b0, b1, b2, b3], _ => exact ⟨b0, b1, b2, b3, rfl⟩
  obtain ⟨h0, h1, h2, h3⟩ := extract_joinBytes_word b0 b1 b2 b3
  rw [FetchesWord, h0, h1, h2, h3]
  exact ⟨haligned, hram, anyStored_eq_false.mp hstored, by simpa using hbyte 0 (by decide), hbyte 1 (by decide),
    hbyte 2 (by decide), hbyte 3 (by decide)⟩

/-- A step takes an exception or has an effect of the instruction it runs. -/
theorem step_effect (h : step s = .next t) :
    (∃ c info, t = s.takeException c info) ∨ ∃ i, RunsInstr s i ∧ Effect i s t := by
  obtain ⟨c, info, -, rfl⟩ | ⟨w, e, -, -, rfl⟩ | ⟨w, i, hw, hd, hexec⟩ := step_eq_next.mp h
  · exact .inl ⟨c, info, rfl⟩
  · exact .inl ⟨_, _, rfl⟩
  · exact .inr ⟨i, ⟨w, .of_fetch hw, hd⟩, exec_effect hexec⟩

/-! ## The invariant -/

/-- The invariant speaks of memory, the record of stored bytes and the platform only. -/
theorem State.Inv.congr (h : s.Inv) (hmem : t.mem = s.mem) (hstored : t.stored = s.stored)
    (hplatform : t.platform = s.platform) : t.Inv := by
  rwa [State.Inv, hmem, hstored, hplatform]

/-- A store of bytes that are RAM and inside the address space keeps the invariant. -/
theorem State.Inv.storeBytes {w a n : Nat} (h : s.Inv) (v : BitVec w) (ha : a + n ≤ 2 ^ 32)
    (hram : s.platform.allRam a n = true) : (s.storeBytes a n v).Inv := by
  obtain ⟨hmem, hrising, hbytes⟩ := h
  refine ⟨Memory.wf_writeBytes _ hmem (by simpa using ha), markStoredRange_rising hrising, fun b hb => ?_⟩
  rw [State.storeBytes_mem, State.storeBytes_platform, Memory.read_writeBytes, length_splitBytes]
  by_cases hin : a ≤ b ∧ b < a + n
  · rw [if_pos hin, getElem?_splitBytes v (by omega)]
    refine ⟨rfl, ?_⟩
    simpa [show a + (b - a) = b by omega] using Platform.allRam_eq_true.mp hram (b - a) (by omega)
  · rw [if_neg hin]
    exact hbytes b ((mem_markStoredRange.mp hb).resolve_right hin)

theorem Effect.inv (h : Effect i s t) (hs : s.Inv) : t.Inv := by
  cases h with
  | stored rs1 imm a he n v hn ha hr hp =>
    have hdvd : n ∣ 2 ^ 32 := by
      obtain rfl | rfl | rfl | rfl := hn <;> decide
    exact (hs.storeBytes v (toNat_add_le_of_aligned hdvd ha) hr).congr rfl rfl rfl
  | gpr | linked => exact hs.congr (by simp [State.link]) (by simp [State.link]) (by simp [State.link])
  | _ => exact hs.congr rfl rfl rfl

/-! ## The mode and the trap state -/

/-- Only RFE in system mode enters user mode (10_state.md R21). -/
theorem Effect.eq_rfe_of_user (h : Effect i s t) (hs : s.mode = .system) (ht : t.mode = .user) :
    i = .rfe ∧ t = s.returnFromException := by
  cases h with
  | returned hi => exact ⟨hi, rfl⟩
  | raised => cases ht
  | gpr | linked => simp [State.link, hs] at ht
  | _ => cases hs.symm.trans ht

/-- In user mode an instruction takes an exception or leaves the trap state alone (60_exceptions.md R220, R221). -/
theorem Effect.trapState_of_user (h : Effect i s t) (hs : s.mode = .user) :
    (∃ c info, t = s.takeException c info) ∨ SameTrapState s t := by
  cases h with
  | raised c info => exact .inl ⟨c, info, rfl⟩
  | iarWritten _ _ hm | ecrWritten _ _ hm | edrWritten _ _ hm | returned _ hm => cases hs.symm.trans hm
  | gpr | linked => exact .inr (by simp [SameTrapState, State.link])
  | _ => exact .inr ⟨rfl, rfl, rfl, rfl⟩

/-! ## The comparison bit -/

/-- The instructions that write the comparison bit (10_state.md R19). -/
theorem Effect.writes_flag (h : Effect i s t) (hc : t.fpsrC ≠ s.fpsrC) :
    partWritten i = .flag ∨ ∃ rs1, i = .movi2s 0#5 rs1 := by
  cases h with
  | compared _ hi => exact .inl hi
  | fpsrWritten rs1 hi => exact .inr ⟨rs1, hi⟩
  | gpr | linked => simp [State.link] at hc
  | _ => exact absurd rfl hc

/-! ## What each instruction leaves unchanged -/

/-- `t` is `s` but for `pc`, the counter of draws and the part `p` of the state. -/
def WritesOnly (p : Part) (s t : State) : Prop :=
  (∀ r, r = 0#5 ∨ p ≠ .gpr r → t.readR r = s.readR r) ∧
  (∀ r, p ≠ .fpr r → p ≠ .pair r → p ≠ .pair (r - 1#5) → t.readF r = s.readF r) ∧
  (p ≠ .flag → p ≠ .special 0#5 → t.fpsrC = s.fpsrC) ∧
  (p ≠ .special 1#5 → t.iar = s.iar) ∧
  (p ≠ .special 2#5 → t.ecr = s.ecr) ∧
  (p ≠ .special 3#5 → t.edr = s.edr) ∧
  (p ≠ .mode → t.mode = s.mode) ∧
  (∀ a : Word, ¬ p.HoldsByte s a.toNat → t.readByte a = s.readByte a) ∧
  (∀ b, b ∈ t.stored ↔ b ∈ s.stored ∨ p.HoldsByte s b) ∧
  ((∀ r, p ≠ .fpr r ∧ p ≠ .pair r) → t.draws = s.draws) ∧
  t.platform = s.platform

section
variable (s)

theorem writesOnly_gpr (rd : GReg) (v : Word) : WritesOnly (.gpr rd) s (s.writeR rd v).advance := by
  simp only [WritesOnly, Part.HoldsByte]
  refine ⟨fun r hr => ?gprs, ?rest⟩
  case gprs =>
    rw [State.readR_advance, State.readR_writeR]
    by_cases h0 : r = 0#5
    · simp [h0]
    · have hne : r ≠ rd := fun h => hr.resolve_left h0 (h ▸ rfl)
      rw [if_neg h0, if_neg hne]
  case rest => simp

theorem writesOnly_link (target : Word) : WritesOnly (.gpr 31#5) s (s.link.jump target) := by
  obtain ⟨hgprs, hrest⟩ := writesOnly_gpr s 31#5 (nextPc s.pc)
  exact ⟨hgprs, hrest⟩

theorem writesOnly_fpr (rd : FReg) (v : Word) : WritesOnly (.fpr rd) s (s.writeF rd v).advance := by
  simp only [WritesOnly, Part.HoldsByte]
  refine ⟨fun _ _ => rfl, fun r hr _ _ => ?fprs, ?rest⟩
  case fprs =>
    have hne : r ≠ rd := fun h => hr (h ▸ rfl)
    rw [State.readF_advance, State.readF_writeF, if_neg hne]
  case rest => simp

theorem writesOnly_pair (rd : FReg) (v : DWord) : WritesOnly (.pair rd) s (s.writeD rd v).advance := by
  simp only [WritesOnly, Part.HoldsByte]
  refine ⟨fun _ _ => rfl, fun r _ hr hr1 => ?fprs, ?rest⟩
  case fprs =>
    have hhigh : r ≠ rd := fun h => hr (h ▸ rfl)
    have hlow : r ≠ rd + 1#5 := fun h => hr1 (by simp [h])
    rw [State.readF_advance, State.readF_writeD, if_neg hhigh, if_neg hlow]
  case rest => simp

/-- An instruction that writes FPRs may make a draw besides. -/
theorem WritesOnly.of_draw {p : Part} (h : WritesOnly p s.draw t) (hp : ∃ rd, p = .fpr rd ∨ p = .pair rd) :
    WritesOnly p s t := by
  obtain ⟨hgprs, hfprs, hflag, hiar, hecr, hedr, hmode, hmem, hstored, -, hplatform⟩ := h
  refine ⟨hgprs, hfprs, hflag, hiar, hecr, hedr, hmode, hmem, hstored, fun hno => ?_, hplatform⟩
  obtain ⟨rd, hp⟩ := hp
  exact absurd hp (not_or.mpr (hno rd))

theorem writesOnly_memory {w : Nat} (rs1 : GReg) (imm : Half) (n : Nat) (v : BitVec w) :
    WritesOnly (.memory rs1 imm n) s (s.storeBytes (effectiveAddress (s.readR rs1) imm).toNat n v).advance := by
  simp only [WritesOnly, Part.holdsByte_memory]
  refine ⟨fun _ _ => rfl, fun _ _ _ _ => rfl, fun _ _ => rfl, fun _ => rfl, fun _ => rfl, fun _ => rfl, fun _ => rfl,
    fun a ha => ?bytes, fun b => mem_markStoredRange, fun _ => rfl, rfl⟩
  case bytes =>
    rw [State.readByte_advance, State.readByte, State.storeBytes_mem, Memory.read_writeBytes, length_splitBytes,
      if_neg ha, State.readByte]

end

/-- An instruction takes an exception or writes its own part of the state only. -/
theorem Effect.writesOnly (h : Effect i s t) :
    (∃ c info, t = s.takeException c info) ∨ WritesOnly (partWritten i) s t := by
  cases h with
  | raised c info => exact .inl ⟨c, info, rfl⟩
  | gpr rd v hi => exact .inr (hi ▸ writesOnly_gpr s rd v)
  | linked target hi => exact .inr (hi ▸ writesOnly_link s target)
  | fpr rd v hi => exact .inr (hi ▸ writesOnly_fpr s rd v)
  | fprDrawn rd v hi => exact .inr (hi ▸ (writesOnly_fpr s.draw rd v).of_draw s ⟨rd, .inl rfl⟩)
  | pair rd v hi => exact .inr (hi ▸ writesOnly_pair s rd v)
  | pairDrawn rd v hi => exact .inr (hi ▸ (writesOnly_pair s.draw rd v).of_draw s ⟨rd, .inr rfl⟩)
  | stored rs1 imm a ha n v hn hal hram hi => exact .inr (hi ▸ ha ▸ writesOnly_memory s rs1 imm n v)
  | compared b hi => exact .inr (by simp [WritesOnly, Part.HoldsByte, hi])
  | jumped target hi => exact .inr (by simp [WritesOnly, Part.HoldsByte, hi])
  | fpsrWritten rs1 hi | iarWritten rs1 hi | ecrWritten rs1 hi | edrWritten rs1 hi =>
    subst hi
    exact .inr (by simp [WritesOnly, Part.HoldsByte, partWritten])
  | returned hi =>
    subst hi
    exact .inr (by simp [WritesOnly, Part.HoldsByte, partWritten])

end Sys2Proof.Machine

open Sys2Proof Sys2Proof.Machine

/-- Settles O54: trap entry leaves memory and its record alone, and of the effects a store alone writes them. -/
theorem stepKeepsInvariant : Obligations.StepKeepsInvariant := by
  intro s t hs hstep
  obtain ⟨c, info, rfl⟩ | ⟨i, -, heffect⟩ := step_effect hstep
  · exact hs.congr rfl rfl rfl
  · exact heffect.inv hs

/-- Settles O57: trap entry ends in system mode, and of the effects the return alone ends in user mode. -/
theorem onlyRfeEntersUserMode : Obligations.OnlyRfeEntersUserMode := by
  intro s t hstep hs ht
  obtain ⟨c, info, rfl⟩ | ⟨i, hruns, heffect⟩ := step_effect hstep
  · cases ht
  · obtain ⟨rfl, rfl⟩ := heffect.eq_rfe_of_user hs ht
    exact ⟨hruns, s.returnFromException_result⟩

/-- Settles O58: the effects that write the trap state are privileged. -/
theorem userModeLeavesTrapStateAlone : Obligations.UserModeLeavesTrapStateAlone := by
  intro s t hstep hs
  have htrap : (∃ c info, t = s.takeException c info) ∨ SameTrapState s t := by
    obtain h | ⟨i, -, heffect⟩ := step_effect hstep
    · exact .inl h
    · exact heffect.trapState_of_user hs
  obtain ⟨c, info, rfl⟩ | hsame := htrap
  · exact .inl ⟨rfl, c, info, s.takeException_result c info⟩
  · obtain ⟨-, -, -, hmode⟩ := id hsame
    exact .inr ⟨hmode.trans hs, hsame⟩

/-- Settles O59: each effect is trap entry or one update of the part that the instruction writes. -/
theorem instructionsWriteOnlyTheirPart : Obligations.InstructionsWriteOnlyTheirPart := by
  intro i s t hexec
  obtain ⟨c, info, rfl⟩ | h := (exec_effect hexec).writesOnly
  · exact .inl ⟨c, info, s.takeException_result c info⟩
  · exact .inr h

/-- Settles O60: trap entry keeps the comparison bit, and of the effects two write it. -/
theorem onlyComparesWriteComparisonBit : Obligations.OnlyComparesWriteComparisonBit := by
  intro s t hstep hc
  obtain ⟨c, info, rfl⟩ | ⟨i, hruns, heffect⟩ := step_effect hstep
  · exact absurd rfl hc
  · exact ⟨i, hruns, heffect.writes_flag hc⟩
end

section
/-! SUPPORT. The proofs of the statements about single steps, the stops of a step, and the state after reset. -/

namespace Sys2Proof.Machine

variable {i : Instr} {s : State}

/-! ## Bytes with no value (10_state.md R25) -/

/-- Reading several bytes gives nothing exactly when one of them has no value. -/
theorem Memory.readBytes_eq_none {m : Memory} {a n : Nat} :
    m.readBytes a n = none ↔ ∃ k < n, m.read (a + k) = none := by
  induction n generalizing a with
  | zero => simp [Memory.readBytes]
  | succ n ih =>
    have hsplit : m.readBytes a (n + 1) = none ↔ m.read a = none ∨ m.readBytes (a + 1) n = none := by
      cases h : m.read a <;> cases h' : m.readBytes (a + 1) n <;> simp [Memory.readBytes, h, h']
    rw [hsplit, ih]
    constructor
    · rintro (h | ⟨k, hk, h⟩)
      · exact ⟨0, by omega, h⟩
      · exact ⟨k + 1, by omega, by rwa [← Nat.add_assoc, Nat.add_right_comm]⟩
    · rintro ⟨k, hk, h⟩
      cases k with
      | zero => exact .inl h
      | succ k => exact .inr ⟨k, by omega, by rwa [Nat.add_right_comm, Nat.add_assoc]⟩

/-- An accessible range of which one byte has no value cannot be read. -/
theorem Accessible.readBytes_eq_none {a : Word} {n : Nat} (ha : Accessible s a n) (hn : n ∣ 2 ^ 32)
    (h : ∃ k < n, s.readByte (a + BitVec.ofNat 32 k) = none) : s.mem.readBytes a.toNat n = none := by
  obtain ⟨haligned, -⟩ := ha
  have hfit := toNat_add_le_of_aligned hn haligned
  obtain ⟨k, hk, hnone⟩ := h
  rw [State.readByte, toNat_add_ofNat (by omega)] at hnone
  exact Memory.readBytes_eq_none.mpr ⟨k, hk, hnone⟩

/-- When `MemRead` stops the machine, and by which fault (20_memory.md R36; log 5). -/
theorem State.memRead_of_unwritten {w n : Nat} {a : Word} (ha : Accessible s a n)
    (hnone : s.mem.readBytes a.toNat n = none) : s.memRead w a n = .faults (.unwrittenByte a) := by
  obtain ⟨haligned, hram⟩ := ha
  simp [State.memRead, haligned, hram, hnone]

/-- A load of a byte with no value stops the machine, whatever it is for (log 5). -/
theorem Accessible.exec_load_unwritten {w n : Nat} {rs1 : GReg} {imm : Half} {k : BitVec w → Result}
    (ha : Accessible s (s.readR rs1 + imm.signExtend 32) n) (hn : n ∣ 2 ^ 32)
    (h : ∃ k < n, s.readByte (s.readR rs1 + imm.signExtend 32 + BitVec.ofNat 32 k) = none)
    (hi : exec i s = s.load w n rs1 imm k) :
    exec i s = .fault (.unwrittenByte (s.readR rs1 + imm.signExtend 32)) := by
  rw [hi, State.load, effectiveAddress, sext, State.memRead_of_unwritten ha (ha.readBytes_eq_none hn h)]
  rfl

/-- When `Fetch` stops the machine, and by which fault (20_memory.md R38; log 5). -/
theorem State.fetch_of_unwritten {a : Word} (ha : Accessible s a 4) (hstored : anyStored s.stored a.toNat 4 = false)
    (hnone : s.mem.readBytes a.toNat 4 = none) : s.fetch a = .faults (.unwrittenByte a) := by
  obtain ⟨haligned, hram⟩ := ha
  simp [State.fetch, low_bits_eq_zero.mpr haligned, hram, hstored, hnone]

/-- A step whose fetch raises an exception takes it (20_memory.md R34). -/
theorem step_of_fetch_raises {c : Cause} {info : Word} (h : s.fetch s.pc = .raises c info) :
    ∃ t, step s = .next t ∧ TrapResult s t c info :=
  ⟨_, step_eq_next.mpr (.inl ⟨c, info, h, rfl⟩), s.takeException_result c info⟩

end Sys2Proof.Machine

open Sys2Proof Sys2Proof.Machine

/-- Settles O6: the fetch gives the word and the decoder the instruction, and nothing is left but to run it. -/
theorem stepRunsDecoded : Obligations.StepRunsDecoded := by
  intro s w i hw hdecode
  rw [step, hw.fetch, Access.andThen_done, hdecode]

/-- Settles O8: the step takes what the fetch answers. -/
theorem stepTakesFetchExceptions : Obligations.StepTakesFetchExceptions := by
  intro s
  refine ⟨fun hmis => ?misaligned, fun haligned habs => ?absent, fun haligned hram hstored => ?stored⟩
  case misaligned => exact step_of_fetch_raises (State.fetch_eq_raises.mpr ⟨rfl, .inl ⟨hmis, rfl⟩⟩)
  case absent => exact step_of_fetch_raises (State.fetch_eq_raises.mpr ⟨rfl, .inr ⟨haligned, habs, rfl⟩⟩)
  case stored =>
    rw [step, State.fetch_eq_refuses.mpr ⟨haligned, hram, anyStored_eq_true.mpr hstored, rfl⟩]
    rfl

/-- Settles O10: each is an access of its size, which reads all its bytes or none. -/
theorem unwrittenByteStops : Obligations.UnwrittenByteStops := by
  intro rd rs1 imm s a
  refine ⟨fun n hn hacc hnone => ⟨?one, ?two, ?four, ?eight⟩, fun hacc hstored hnone => ?fetch⟩
  case one | two | four =>
    rintro rfl
    exact ⟨hacc.exec_load_unwritten (by decide) hnone rfl, hacc.exec_load_unwritten (by decide) hnone rfl⟩
  case eight =>
    rintro rfl heven
    have hload : exec (.ld rd rs1 imm) s = s.load 64 8 rs1 imm fun v => s.setD rd v :=
      exec_of_wellFormed rfl (FReg.isPair_eq_true.mpr heven)
    exact hacc.exec_load_unwritten (by decide) hnone hload
  case fetch =>
    have hbytes := hacc.readBytes_eq_none (by decide) hnone
    rw [step, State.fetch_of_unwritten hacc (anyStored_eq_false.mpr hstored) hbytes]
    rfl

/-- Settles O14: trap entry saves `pc + 4` and enters system mode, where RFE returns to it. -/
theorem rfeContinuesAfterTrap : Obligations.RfeContinuesAfterTrap := by
  intro off s
  obtain ⟨t, htrap, ht⟩ : Answers (.trap off) s (TrapResult s · .trap (off.zeroExtend 32)) := .of_raise rfl
  obtain ⟨hiar, hecr, hedr, hmode, -, hgprs, hfprs, hflag, ⟨hmem, hstored⟩, -⟩ := ht
  refine ⟨t, t.returnFromException, htrap, exec_rfe_of_system hmode, hiar, rfl, hiar, hecr, hedr, hgprs, hfprs, hflag,
    hmem, hstored⟩

/-- Settles O55: no byte is in memory and none in the record. -/
theorem resetMeetsInvariant : Obligations.ResetMeetsInvariant := by
  refine ⟨⟨.nil, fun c hc => ?_⟩, .nil, fun a ha => ?_⟩
  · cases hc
  · cases ha

/-- Settles O56: the fields of the reset state; the one region of RAM holds all of the address space. -/
theorem resetState : Obligations.ResetState :=
  ⟨rfl, rfl, rfl, rfl, rfl, fun _ => rfl, rfl⟩
end

section
/-! SUPPORT. The proof of the statement about the overflow conditions of 41_arithmetic_logical.md R99. -/

namespace Sys2Proof.Machine

/-- The exact quotient is out of range exactly where the condition of DIV holds: any other quotient is one that a word
reads as (41_arithmetic_logical.md R110). -/
theorem divOverflows_iff_outside {a b : Word} :
    divOverflows a b = true ↔ a.toInt.tdiv b.toInt < -2 ^ 31 ∨ 2 ^ 31 - 1 < a.toInt.tdiv b.toInt := by
  constructor
  · intro h
    obtain ⟨ha, hb⟩ := divOverflows_eq_true.mp h
    rw [ha, hb]
    decide
  · contrapose
    intro h
    have hq := toInt_ofInt_tdiv (Bool.eq_false_iff.mpr h)
    have hlow := BitVec.le_toInt (BitVec.ofInt 32 (a.toInt.tdiv b.toInt))
    have hhigh := BitVec.toInt_lt (x := BitVec.ofInt 32 (a.toInt.tdiv b.toInt))
    rw [hq] at hlow hhigh
    omega

/-- A word made of the exact result reads as that result where it is in range. -/
theorem toInt_eq_of_inside {v : Word} {x : Int} (hv : v = BitVec.ofInt 32 x) (hx : outsideSigned x = false) :
    v.toInt = x :=
  hv ▸ toInt_ofInt_of_inside hx

end Sys2Proof.Machine

open Sys2Proof Sys2Proof.Machine

/-- Settles O26: each condition says that the exact result is out of range, and a word that is the exact result modulo
2^32 reads as it otherwise. -/
theorem overflowFormsAgree : Obligations.OverflowFormsAgree := by
  intro a b outside
  have hadd := addOverflows_eq_outsideSigned a b
  have hsub := subOverflows_eq_outsideSigned a b
  refine ⟨?add, ?addSigns, ?sub, ?subSigns, outsideSigned_eq_true, fun _ => divOverflows_iff_outside,
    divOverflows_eq_true, fun h => ?addExact, fun h => ?subExact, fun h => ?multExact, fun h _ => ?divExact⟩
  case add => exact hadd ▸ outsideSigned_eq_true
  case addSigns => simp [addOverflows]
  case sub => exact hsub ▸ outsideSigned_eq_true
  case subSigns => simp [subOverflows]
  case addExact =>
    refine toInt_eq_of_inside ?_ (hadd ▸ h)
    rw [BitVec.ofInt_add, BitVec.ofInt_toInt, BitVec.ofInt_toInt]
  case subExact =>
    refine toInt_eq_of_inside ?_ (hsub ▸ h)
    rw [ofInt_sub, BitVec.ofInt_toInt, BitVec.ofInt_toInt]
  case multExact =>
    refine toInt_eq_of_inside ?_ h
    rw [BitVec.ofInt_mul, BitVec.ofInt_toInt, BitVec.ofInt_toInt]
  case divExact =>
    calc (a.sdiv b).toInt
      _ = (a.toInt.tdiv b.toInt).bmod (2 ^ 32) := BitVec.toInt_sdiv a b
      _ = (BitVec.ofInt 32 (a.toInt.tdiv b.toInt)).toInt := (BitVec.toInt_ofInt _).symm
      _ = a.toInt.tdiv b.toInt := toInt_ofInt_tdiv h
end

section
/-! SUPPORT. The proofs of the statements of spec/43_floating_point.md about the exact operations and comparison: a
finite value is a signed numerator over a positive denominator. -/

namespace Sys2Proof.Machine

/-! ## Signed numerators -/

/-- A finite value as a rational number, its sign in the numerator. -/
theorem FloatValue.toRat_finite (s : Bool) (n d : Nat) :
    (FloatValue.finite s n d).toRat = (signedNum s n : ℚ) / d := by
  cases s <;> simp [FloatValue.toRat, signedNum, neg_div]

theorem signedNum_not (s : Bool) (n : Nat) : signedNum (!s) n = -signedNum s n := by
  cases s <;> simp [signedNum]

theorem signedNum_mul (s t : Bool) (n m : Nat) : signedNum (s ^^ t) (n * m) = signedNum s n * signedNum t m := by
  cases s <;> cases t <;> simp [signedNum]

theorem signedNum_mul_natCast (s : Bool) (n m : Nat) : signedNum s (n * m) = signedNum s n * m := by
  cases s <;> simp [signedNum]

theorem signedNum_add (s : Bool) (a b : Nat) : signedNum s (a + b) = signedNum s a + signedNum s b := by
  cases s with
  | false => simp [signedNum]
  | true => simp only [signedNum, if_true]; omega

theorem signedNum_sub (s : Bool) {a b : Nat} (h : b ≤ a) :
    signedNum s (a - b) = signedNum s a + signedNum (!s) b := by
  cases s <;> simp [signedNum] <;> omega

theorem signedNum_eq_zero {s : Bool} {n : Nat} : signedNum s n = 0 ↔ n = 0 := by
  cases s <;> simp [signedNum]

/-! ## Exact operations -/

/-- The sum of two finite values: the numerators over the common denominator are added, a sum of one sign keeps it, and
only a positive or negative sum of opposite signs can be negative (43_floating_point.md R171). -/
theorem FloatValue.add_finite (s t : Bool) (n d m e : Nat) : ∃ u k,
    (FloatValue.finite s n d).add (.finite t m e) = .finite u k (d * e) ∧
    signedNum u k = signedNum s n * e + signedNum t m * d ∧
    (s = t → u = s) ∧ (s ≠ t → signedNum u k = 0 → u = false) := by
  rw [FloatValue.add, ← signedNum_mul_natCast, ← signedNum_mul_natCast]
  by_cases hst : s = t
  · subst hst
    exact ⟨s, n * e + m * d, if_pos rfl, signedNum_add s _ _, fun _ => rfl, fun h => absurd rfl h⟩
  · obtain rfl : s = !t := Bool.eq_not_of_ne hst
    rw [if_neg hst]
    obtain hgt | heq | hlt := Nat.lt_trichotomy (m * d) (n * e)
    · refine ⟨!t, n * e - m * d, if_pos hgt, ?_, fun h => absurd h hst, fun _ h => ?_⟩
      · rw [signedNum_sub _ hgt.le, Bool.not_not]
      · have := signedNum_eq_zero.mp h
        omega
    · refine ⟨false, 0, ?_, ?_, fun h => absurd h hst, fun _ _ => rfl⟩
      · rw [heq, if_neg (lt_irrefl _), if_neg (lt_irrefl _)]
      · rw [heq, signedNum_not, neg_add_cancel]
        rfl
    · refine ⟨t, m * d - n * e, (if_neg hlt.not_gt).trans (if_pos hlt), ?_, fun h => absurd h hst, fun _ h => ?_⟩
      · rw [signedNum_sub _ hlt.le, add_comm]
      · have := signedNum_eq_zero.mp h
        omega

/-- The sum of two finite values is the rational one, with its sign (43_floating_point.md R171). -/
theorem FloatValue.add_finite_toRat (s t : Bool) (n m : Nat) {d e : Nat} (hd : 0 < d) (he : 0 < e) : ∃ u k f,
    (FloatValue.finite s n d).add (.finite t m e) = .finite u k f ∧ 0 < f ∧
    ((FloatValue.finite s n d).add (.finite t m e)).toRat =
      (FloatValue.finite s n d).toRat + (FloatValue.finite t m e).toRat ∧
    ((FloatValue.finite s n d).toRat + (FloatValue.finite t m e).toRat = 0 → s ≠ t → u = false) ∧
    (s = t → u = s) := by
  obtain ⟨u, k, hadd, hnum, hsame, hzero⟩ := FloatValue.add_finite s t n d m e
  have hd' : (d : ℚ) ≠ 0 := by exact_mod_cast hd.ne'
  have he' : (e : ℚ) ≠ 0 := by exact_mod_cast he.ne'
  have hrat : (signedNum u k : ℚ) / (d * e : Nat) = signedNum s n / d + signedNum t m / e := by
    rw [hnum]
    push_cast
    field_simp
  refine ⟨u, k, d * e, hadd, Nat.mul_pos hd he, ?_, fun h hst => hzero hst ?_, hsame⟩
  · rw [hadd, FloatValue.toRat_finite, FloatValue.toRat_finite, FloatValue.toRat_finite, hrat]
  · rw [FloatValue.toRat_finite, FloatValue.toRat_finite, ← hrat, div_eq_zero_iff] at h
    have hde : ((d * e : Nat) : ℚ) ≠ 0 := by exact_mod_cast (Nat.mul_pos hd he).ne'
    exact_mod_cast h.resolve_right hde

/-- The opposite number. -/
theorem FloatValue.toRat_negate (x : FloatValue) : x.negate.toRat = -x.toRat := by
  cases x with
  | nan => simp [FloatValue.negate, FloatValue.toRat]
  | infinity s => simp [FloatValue.negate, FloatValue.toRat]
  | finite s n d =>
    rw [FloatValue.negate, FloatValue.toRat_finite, FloatValue.toRat_finite, signedNum_not, Int.cast_neg, neg_div]

/-! ## Invalid operations (43_floating_point.md R173) -/

theorem FloatValue.negate_eq_nan {x : FloatValue} : x.negate = .nan ↔ x = .nan := by
  cases x <;> simp [FloatValue.negate]

theorem FloatValue.negate_eq_infinity {x : FloatValue} {s : Bool} : x.negate = .infinity (!s) ↔ x = .infinity s := by
  cases x <;> simp [FloatValue.negate]

/-- A sum is a NaN on a NaN and on infinities of opposite signs. -/
theorem FloatValue.add_eq_nan {x y : FloatValue} :
    x.add y = .nan ↔ x = .nan ∨ y = .nan ∨ ∃ s, x = .infinity s ∧ y = .infinity (!s) := by
  cases x with
  | nan => simp [FloatValue.add]
  | infinity s =>
    cases y with
    | nan => simp [FloatValue.add]
    | infinity t => cases s <;> cases t <;> simp [FloatValue.add]
    | finite t m e => simp [FloatValue.add]
  | finite s n d =>
    cases y with
    | nan => simp [FloatValue.add]
    | infinity t => simp [FloatValue.add]
    | finite t m e =>
      obtain ⟨u, k, hadd, -⟩ := FloatValue.add_finite s t n d m e
      simp [hadd]

/-- A product is a NaN on a NaN and on a zero with an infinity. -/
theorem FloatValue.mul_eq_nan {x y : FloatValue} :
    x.mul y = .nan ↔ x = .nan ∨ y = .nan ∨ (∃ s t d, x = .infinity s ∧ y = .finite t 0 d) ∨
      ∃ s t d, x = .finite s 0 d ∧ y = .infinity t := by
  cases x with
  | nan => simp [FloatValue.mul]
  | infinity s => cases y <;> simp [FloatValue.mul]
  | finite s n d => cases y <;> simp [FloatValue.mul]

/-- A quotient is a NaN on a NaN, on two infinities and on two zeros. -/
theorem FloatValue.div_eq_nan {x y : FloatValue} :
    x.div y = .nan ↔ x = .nan ∨ y = .nan ∨ (∃ s t, x = .infinity s ∧ y = .infinity t) ∨
      ∃ s t d e, x = .finite s 0 d ∧ y = .finite t 0 e := by
  cases x with
  | nan => simp [FloatValue.div]
  | infinity s => cases y <;> simp [FloatValue.div]
  | finite s n d =>
    cases y with
    | nan => simp [FloatValue.div]
    | infinity t => simp [FloatValue.div]
    | finite t m e => by_cases hm : m = 0 <;> simp [FloatValue.div, hm]

/-! ## Comparison (43_floating_point.md R188) -/

/-- Fractions compare as their numerators over the common denominator. -/
theorem FloatValue.toRat_lt_toRat {s t : Bool} {n d m e : Nat} (hd : 0 < d) (he : 0 < e) :
    (FloatValue.finite s n d).toRat < (FloatValue.finite t m e).toRat ↔ signedNum s n * e < signedNum t m * d := by
  rw [FloatValue.toRat_finite, FloatValue.toRat_finite,
    div_lt_div_iff₀ (by exact_mod_cast hd) (by exact_mod_cast he)]
  norm_cast

theorem FloatValue.toRat_eq_toRat {s t : Bool} {n d m e : Nat} (hd : 0 < d) (he : 0 < e) :
    (FloatValue.finite s n d).toRat = (FloatValue.finite t m e).toRat ↔ signedNum s n * e = signedNum t m * d := by
  rw [FloatValue.toRat_finite, FloatValue.toRat_finite,
    div_eq_div_iff (by exact_mod_cast hd.ne') (by exact_mod_cast he.ne')]
  norm_cast

end Sys2Proof.Machine

open Sys2Proof Sys2Proof.Machine

/-- Settles O44: on finite values the numerators over a common denominator, on infinities one evaluation for each pair
of signs. -/
theorem exactOperationsAreRational : Obligations.ExactOperationsAreRational := by
  refine ⟨fun s t n d m e hd he => ⟨?add, ?sub, ?mul, fun hm => ?div, fun hm hn => ?divZero⟩, fun s t n d => ?infinite,
    fun s t => ?infinities⟩
  case add => exact FloatValue.add_finite_toRat s t n m hd he
  case sub =>
    obtain ⟨u, k, f, hadd, hf, hrat, hzero, hsame⟩ := FloatValue.add_finite_toRat s (!t) n m hd he
    have hneg : (FloatValue.finite (!t) m e).toRat = -(FloatValue.finite t m e).toRat :=
      FloatValue.toRat_negate (.finite t m e)
    rw [hneg, ← sub_eq_add_neg] at hrat hzero
    exact ⟨u, k, f, hadd, hf, hrat, fun h hst => hzero h (by simp [hst]), fun hst => hsame (Bool.eq_not_of_ne hst)⟩
  case mul =>
    refine ⟨n * m, d * e, rfl, Nat.mul_pos hd he, ?_⟩
    rw [FloatValue.mul, FloatValue.toRat_finite, FloatValue.toRat_finite, FloatValue.toRat_finite, signedNum_mul,
      div_mul_div_comm]
    push_cast
    rfl
  case div =>
    have hdiv : (FloatValue.finite s n d).div (.finite t m e) = .finite (s ^^ t) (n * e) (d * m) := if_neg hm
    refine ⟨n * e, d * m, hdiv, Nat.mul_pos hd (Nat.pos_of_ne_zero hm), ?_⟩
    rw [hdiv, FloatValue.toRat_finite, FloatValue.toRat_finite, FloatValue.toRat_finite]
    cases s <;> cases t <;> simp [signedNum, div_div_div_eq, neg_div, div_neg]
  case divZero => exact (if_pos hm).trans (if_neg hn)
  case infinite =>
    refine ⟨rfl, rfl, rfl, rfl, fun hn => ⟨if_neg hn, ?_⟩, rfl, 1, ?_, Nat.one_pos⟩
    · rw [Bool.xor_comm]
      exact if_neg hn
    · rw [Bool.xor_comm]
      rfl
  case infinities =>
    refine ⟨if_pos rfl, ?_, rfl⟩
    simp [FloatValue.sub, FloatValue.negate, FloatValue.add]

/-- Settles O45: one case analysis for each operation; the difference is the sum with the opposite number. -/
theorem invalidOperationsGiveNaN : Obligations.InvalidOperationsGiveNaN := by
  refine ⟨fun x y => ⟨FloatValue.add_eq_nan, ?sub, FloatValue.mul_eq_nan, FloatValue.div_eq_nan⟩, fun x => ?round⟩
  case sub =>
    rw [FloatValue.sub, FloatValue.add_eq_nan, FloatValue.negate_eq_nan]
    simp only [FloatValue.negate_eq_infinity]
  case round => cases x <;> simp [rnd32, rnd64, FloatFormat.round]

/-- Settles O53: finite values compare as their numerators over the common denominator, the others by their constructors
and signs. -/
theorem comparisonIsIeee : Obligations.ComparisonIsIeee := by
  refine ⟨fun s t n d m e hd he => ⟨?lt, ?eq, ?gt, rfl, rfl, rfl, rfl⟩, fun s => ?same, rfl, rfl, fun x y => ?unordered⟩
  case lt => rw [FloatValue.compare, Option.some_inj, compare_lt_iff_lt, FloatValue.toRat_lt_toRat hd he]
  case eq => rw [FloatValue.compare, Option.some_inj, compare_eq_iff_eq, FloatValue.toRat_eq_toRat hd he]
  case gt => rw [FloatValue.compare, Option.some_inj, compare_gt_iff_gt, FloatValue.toRat_lt_toRat he hd]
  case same => simp [FloatValue.compare]
  case unordered => cases x <;> cases y <;> simp [FloatValue.compare]
end

section
/-! SUPPORT. The proofs of the statements of spec/43_floating_point.md about rounding and the conversions that are
exact: rounding picks a nearest multiple of the spacing of the patterns near a number, and a number that a pattern
stands for is rounded to that pattern. -/

namespace Sys2Proof.Machine

/-! ## The spacing of the patterns near a number -/

/-- The exponent of the spacing that rounding uses for `n / den`, counted in smallest subnormals. -/
def FloatFormat.spacing (fmt : FloatFormat) (n den : Nat) : Nat := Nat.log2 (n / den) - fmt.fracBits

/-- The magnitude bits of `n / den` rounded, before those past infinity are made infinity. -/
def FloatFormat.roundUncapped (fmt : FloatFormat) (n den : Nat) : Nat :=
  fmt.spacing n den * 2 ^ fmt.fracBits + roundNearestEven n (den * 2 ^ fmt.spacing n den)

theorem FloatFormat.roundMagnitude_eq (fmt : FloatFormat) (num den : Nat) :
    fmt.roundMagnitude num den = min (fmt.roundUncapped (num * 2 ^ fmt.scale) den) fmt.infinityBits := rfl

/-- How far the number of magnitude bits `m` is from `n / den`, counted in smallest subnormals over `den`. -/
def FloatFormat.distance (fmt : FloatFormat) (n den m : Nat) : Nat := ((n : Int) - (fmt.units m * den : Nat)).natAbs

theorem roundNearestEven_bounds (n u : Nat) : n / u ≤ roundNearestEven n u ∧ roundNearestEven n u ≤ n / u + 1 := by
  unfold roundNearestEven
  dsimp only
  split
  · omega
  · split <;> omega

section
variable (fmt : FloatFormat) (n : Nat) {den : Nat} (hden : 0 < den)

/-- Where the spacing is more than one smallest subnormal, the number is at least `2^fracBits` spacings. -/
theorem FloatFormat.le_div_of_spacing_ne_zero (h : fmt.spacing n den ≠ 0) :
    2 ^ (fmt.fracBits + fmt.spacing n den) ≤ n / den := by
  unfold FloatFormat.spacing at h ⊢
  have hx : n / den ≠ 0 := by
    intro hx
    simp [hx] at h
  rw [show fmt.fracBits + (Nat.log2 (n / den) - fmt.fracBits) = Nat.log2 (n / den) by omega]
  exact Nat.log2_self_le hx

/-- The number is less than `2^(fracBits+1)` spacings. -/
theorem FloatFormat.div_lt_spacing : n / den < 2 ^ (fmt.fracBits + 1 + fmt.spacing n den) := by
  unfold FloatFormat.spacing
  exact Nat.lt_log2_self.trans_le (Nat.pow_le_pow_right (by decide) (by omega))

/-- The rounded multiple of the spacing is one that a pattern stands for. -/
theorem FloatFormat.units_roundUncapped : fmt.units (fmt.roundUncapped n den) =
    roundNearestEven n (den * 2 ^ fmt.spacing n den) * 2 ^ fmt.spacing n den := by
  obtain ⟨hlow, hhigh⟩ := roundNearestEven_bounds n (den * 2 ^ fmt.spacing n den)
  rw [← Nat.div_div_eq_div_mul] at hlow hhigh
  refine fmt.units_pattern _ _ ?_ ?_
  · by_cases h : fmt.spacing n den = 0
    · exact .inl h
    · refine .inr (le_trans ?_ hlow)
      rw [Nat.le_div_iff_mul_le (by positivity), ← pow_add]
      exact fmt.le_div_of_spacing_ne_zero n h
  · refine hhigh.trans ?_
    rw [Nat.succ_le_iff, Nat.div_lt_iff_lt_mul (by positivity), ← pow_add]
    exact fmt.div_lt_spacing n

include hden

/-- A pattern stands for a multiple of the spacing, or for less than `2^fracBits` spacings, which the number is not. -/
theorem FloatFormat.units_multiple_or_below (m : Nat) :
    (∃ j, fmt.units m = j * 2 ^ fmt.spacing n den) ∨
      fmt.units m * den < 2 ^ (fmt.fracBits + fmt.spacing n den) * den ∧
      2 ^ (fmt.fracBits + fmt.spacing n den) * den ≤ n := by
  by_cases h : fmt.spacing n den = 0
  · exact .inl ⟨fmt.units m, by rw [h, pow_zero, mul_one]⟩
  · refine (fmt.units_multiple_or_lt m (fmt.spacing n den)).imp_right fun hlt => ⟨?_, ?_⟩
    · exact Nat.mul_lt_mul_of_pos_right hlt hden
    · exact (Nat.le_div_iff_mul_le hden).mp (fmt.le_div_of_spacing_ne_zero n h)

/-- No magnitude bits stand for a nearer number than the rounded ones, which are even where others are as near. -/
theorem FloatFormat.roundUncapped_nearest (hfrac : 0 < fmt.fracBits) (m : Nat) :
    fmt.distance n den (fmt.roundUncapped n den) ≤ fmt.distance n den m ∧
    (m ≠ fmt.roundUncapped n den → fmt.distance n den (fmt.roundUncapped n den) = fmt.distance n den m →
      fmt.roundUncapped n den % 2 = 0) := by
  have hunits := fmt.units_roundUncapped n (den := den)
  have hspacing : 0 < den * 2 ^ fmt.spacing n den := by positivity
  have hmult (j : Nat) : j * 2 ^ fmt.spacing n den * den = j * (den * 2 ^ fmt.spacing n den) := by ring
  have hdist : fmt.distance n den (fmt.roundUncapped n den) = ((n : Int) -
      (roundNearestEven n (den * 2 ^ fmt.spacing n den) * (den * 2 ^ fmt.spacing n den) : Nat)).natAbs := by
    rw [FloatFormat.distance, hunits, hmult]
  obtain ⟨j, hj⟩ | ⟨hbelow, habove⟩ := fmt.units_multiple_or_below n hden m
  · obtain ⟨hle, heven⟩ := roundNearestEven_nearest n _ j hspacing
    rw [hdist, FloatFormat.distance, hj, hmult]
    refine ⟨hle, fun hne heq => ?_⟩
    have hq := heven (fun h => hne (fmt.units_strictMono.injective (by rw [hj, hunits, h]))) heq
    have hbase : 2 ^ fmt.fracBits % 2 = 0 := by
      obtain ⟨f, hf⟩ := Nat.exists_eq_succ_of_ne_zero hfrac.ne'
      rw [hf, Nat.pow_succ, Nat.mul_mod_left]
    rw [FloatFormat.roundUncapped, Nat.add_mod, Nat.mul_mod, hbase, hq]
    rfl
  · obtain ⟨hle, -⟩ := roundNearestEven_nearest n _ (2 ^ fmt.fracBits) hspacing
    have hgrid : 2 ^ fmt.fracBits * (den * 2 ^ fmt.spacing n den) = 2 ^ (fmt.fracBits + fmt.spacing n den) * den := by
      rw [pow_add]
      ring
    have hlt : fmt.distance n den (fmt.roundUncapped n den) < fmt.distance n den m := by
      rw [hdist]
      refine hle.trans_lt ?_
      rw [hgrid, FloatFormat.distance]
      omega
    exact ⟨hlt.le, fun _ heq => absurd heq hlt.ne⟩

/-- Where the rounded bits are past infinity, infinity is the nearest number that is left: the rounded one is above it
and no farther. -/
theorem FloatFormat.infinity_nearest (hfrac : 0 < fmt.fracBits) (hcap : fmt.infinityBits < fmt.roundUncapped n den)
    {m : Nat} (hm : m < fmt.infinityBits) : fmt.distance n den fmt.infinityBits < fmt.distance n den m := by
  obtain ⟨hle, -⟩ := fmt.roundUncapped_nearest n hden hfrac fmt.infinityBits
  have hbelow := Nat.mul_lt_mul_of_pos_right (fmt.units_strictMono hm) hden
  have habove := Nat.mul_lt_mul_of_pos_right (fmt.units_strictMono hcap) hden
  unfold FloatFormat.distance at hle ⊢
  omega

end

/-- Rounding is to the nearest, ties to even (43_floating_point.md R171). -/
theorem FloatFormat.roundMagnitude_nearestEven (fmt : FloatFormat) (num : Nat) {den : Nat} (hden : 0 < den)
    (hfrac : 0 < fmt.fracBits) : fmt.NearestEven num den (fmt.roundMagnitude num den) := by
  rw [FloatFormat.roundMagnitude_eq]
  refine ⟨min_le_right .., fun m hm => ?_⟩
  change fmt.distance _ den _ ≤ fmt.distance _ den m ∧
    (_ → fmt.distance _ den _ = fmt.distance _ den m → _)
  obtain hcap | hcap := Nat.lt_or_ge fmt.infinityBits (fmt.roundUncapped (num * 2 ^ fmt.scale) den)
  · rw [min_eq_right hcap.le]
    obtain rfl | hlt := hm.eq_or_lt
    · exact ⟨le_rfl, fun h => absurd rfl h⟩
    · have hinf := fmt.infinity_nearest _ hden hfrac hcap hlt
      exact ⟨hinf.le, fun _ heq => absurd heq hinf.ne⟩
  · rw [min_eq_left hcap]
    exact fmt.roundUncapped_nearest _ hden hfrac m

/-- A number that magnitude bits up to those of infinity stand for is rounded to those bits. -/
theorem FloatFormat.roundMagnitude_of_units (fmt : FloatFormat) {num den m : Nat} (hden : 0 < den)
    (hfrac : 0 < fmt.fracBits) (hm : m ≤ fmt.infinityBits) (h : num * 2 ^ fmt.scale = fmt.units m * den) :
    fmt.roundMagnitude num den = m := by
  obtain ⟨-, hnearest⟩ := fmt.roundMagnitude_nearestEven num hden hfrac
  obtain ⟨hle, -⟩ := hnearest m hm
  rw [h] at hle
  dsimp only at hle
  have heq : fmt.units m * den = fmt.units (fmt.roundMagnitude num den) * den := by omega
  exact (fmt.units_strictMono.injective (Nat.eq_of_mul_eq_mul_right hden heq)).symm

/-! ## The sign bit and the magnitude bits of a pattern -/

section
variable {w : Nat}

theorem msb_sign_append (s : Bool) (m : BitVec w) : (BitVec.ofBool s ++ m).msb = s := by
  rw [BitVec.msb_append]
  cases s <;> rfl

theorem magnitude_sign_append (s : Bool) (m : BitVec w) : (BitVec.ofBool s ++ m).extractLsb' 0 w = m :=
  BitVec.extractLsb'_append_eq_right

/-- A pattern is its sign bit and its magnitude bits. -/
theorem sign_append_magnitude (v : BitVec (1 + w)) :
    BitVec.ofBool v.msb ++ BitVec.ofNat w (v.extractLsb' 0 w).toNat = v := by
  have hsign : BitVec.ofBool v.msb = v.extractLsb' w 1 := by
    apply BitVec.eq_of_getLsbD_eq
    intro i hi
    obtain rfl : i = 0 := by omega
    simp [BitVec.msb, BitVec.getMsbD]
  rw [hsign, BitVec.ofNat_toNat, BitVec.setWidth_eq]
  exact BitVec.extractLsb'_append_extractLsb'

end

/-- The magnitude bits of binary32 are the exponent and the fraction (43_floating_point.md R170). -/
theorem magnitude_word (v : Word) : (v.extractLsb' 0 31).toNat =
    (v.extractLsb' 23 8).toNat * 2 ^ FloatFormat.sp.fracBits + (v.extractLsb' 0 23).toNat := by
  simp only [BitVec.extractLsb'_toNat, FloatFormat.sp, Nat.shiftRight_eq_div_pow]
  omega

/-- The magnitude bits of binary64 are the exponent and the fraction (43_floating_point.md R170). -/
theorem magnitude_dword (v : DWord) : (v.extractLsb' 0 63).toNat =
    (v.extractLsb' 52 11).toNat * 2 ^ FloatFormat.dp.fracBits + (v.extractLsb' 0 52).toNat := by
  simp only [BitVec.extractLsb'_toNat, FloatFormat.dp, Nat.shiftRight_eq_div_pow]
  omega

/-! ## What a pattern denotes -/

section
variable (fmt : FloatFormat) (s : Bool) {e f : Nat}

/-- Rounding what sign, exponent and fraction denote gives them back, unless that is a NaN. -/
theorem FloatFormat.round_value (hfrac : 0 < fmt.fracBits) (he : e ≤ fmt.maxExp) (hf : f < 2 ^ fmt.fracBits)
    (hnan : fmt.value s e f ≠ .nan) : fmt.round (fmt.value s e f) = some (s, e * 2 ^ fmt.fracBits + f) := by
  obtain rfl | he := he.eq_or_lt
  · have hf0 : f = 0 := by
      by_contra hf0
      exact hnan (by rw [FloatFormat.value, if_pos rfl, if_neg hf0])
    rw [FloatFormat.value, if_pos rfl, if_pos hf0, hf0]
    rfl
  · have hm : e * 2 ^ fmt.fracBits + f ≤ fmt.infinityBits :=
      calc e * 2 ^ fmt.fracBits + f
        _ ≤ (e + 1) * 2 ^ fmt.fracBits := by rw [Nat.add_mul, Nat.one_mul]; omega
        _ ≤ fmt.infinityBits := Nat.mul_le_mul_right _ he
    rw [fmt.value_eq_units s e f he hf, FloatFormat.round,
      fmt.roundMagnitude_of_units (by positivity) hfrac hm rfl]

/-- The number of a finite pattern: `f` smallest subnormals, or `1.f` times a power of two (43_floating_point.md
R170). -/
theorem FloatFormat.toRat_value (he : e ≠ fmt.maxExp) : (fmt.value s e f).toRat = (if s then -1 else 1) *
    (if e = 0 then (f : ℚ) / 2 ^ fmt.scale
      else (1 + (f : ℚ) / 2 ^ fmt.fracBits) * 2 ^ ((e : ℤ) - (fmt.scale - fmt.fracBits + 1))) := by
  rw [FloatFormat.value, if_neg he]
  by_cases h0 : e = 0
  · simp only [if_pos h0, FloatValue.toRat]
    push_cast
    rfl
  · obtain ⟨k, rfl⟩ := Nat.exists_eq_succ_of_ne_zero h0
    have hexp : ((k.succ : ℕ) : ℤ) - (fmt.scale - fmt.fracBits + 1) = (k : ℤ) + fmt.fracBits - fmt.scale := by
      push_cast
      ring
    simp only [if_neg h0, FloatValue.toRat]
    rw [hexp, zpow_sub₀ two_ne_zero, zpow_add₀ two_ne_zero, zpow_natCast, zpow_natCast, zpow_natCast]
    push_cast
    field_simp

end

/-- Magnitude bits of binary64 below those of infinity are those of a finite pattern. -/
theorem exponent_dword_ne {v : DWord} (h : (v.extractLsb' 0 63).toNat < FloatFormat.dp.infinityBits) :
    (v.extractLsb' 52 11).toNat ≠ FloatFormat.dp.maxExp := by
  intro he
  rw [magnitude_dword, he, ← FloatFormat.infinityBits] at h
  omega

theorem FloatFormat.sp_scale : FloatFormat.sp.scale = 149 := rfl

theorem FloatFormat.dp_scale : FloatFormat.dp.scale = 1074 := rfl

/-- A finite pattern of binary32 counts smallest subnormals (43_floating_point.md R170). -/
theorem f32_eq_units {v : Word} (he : (v.extractLsb' 23 8).toNat ≠ 255) :
    f32 v = .finite v.msb (FloatFormat.sp.units (v.extractLsb' 0 31).toNat) (2 ^ 149) := by
  rw [magnitude_word, ← FloatFormat.sp_scale]
  exact FloatFormat.sp.value_eq_units _ _ _ (lt_of_le_of_ne (Nat.le_of_lt_succ (BitVec.isLt _)) he) (BitVec.isLt _)

theorem toRat_f32 {v : Word} (he : (v.extractLsb' 23 8).toNat ≠ 255) :
    (f32 v).toRat = (if v.msb then -1 else 1) *
      (if (v.extractLsb' 23 8).toNat = 0 then ((v.extractLsb' 0 23).toNat : ℚ) / 2 ^ 149
        else (1 + ((v.extractLsb' 0 23).toNat : ℚ) / 2 ^ 23) * 2 ^ (((v.extractLsb' 23 8).toNat : ℤ) - 127)) := by
  have hbias : (FloatFormat.sp.scale : ℤ) - FloatFormat.sp.fracBits + 1 = 127 := by decide
  rw [← hbias, ← FloatFormat.sp_scale]
  exact FloatFormat.sp.toRat_value _ he

theorem rnd32_f32 {v : Word} (h : f32 v ≠ .nan) : rnd32 (f32 v) = some v := by
  have hround : FloatFormat.sp.round (f32 v) = some (v.msb, (v.extractLsb' 0 31).toNat) := by
    rw [magnitude_word]
    exact FloatFormat.sp.round_value _ (by decide) (Nat.le_of_lt_succ (BitVec.isLt _)) (BitVec.isLt _) h
  rw [rnd32, hround]
  exact congrArg some (sign_append_magnitude (w := 31) v)

/-- A finite pattern of binary64 counts smallest subnormals (43_floating_point.md R170). -/
theorem f64_eq_units {v : DWord} (he : (v.extractLsb' 52 11).toNat ≠ 2047) :
    f64 v = .finite v.msb (FloatFormat.dp.units (v.extractLsb' 0 63).toNat) (2 ^ 1074) := by
  rw [magnitude_dword, ← FloatFormat.dp_scale]
  exact FloatFormat.dp.value_eq_units _ _ _ (lt_of_le_of_ne (Nat.le_of_lt_succ (BitVec.isLt _)) he) (BitVec.isLt _)

theorem toRat_f64 {v : DWord} (he : (v.extractLsb' 52 11).toNat ≠ 2047) :
    (f64 v).toRat = (if v.msb then -1 else 1) *
      (if (v.extractLsb' 52 11).toNat = 0 then ((v.extractLsb' 0 52).toNat : ℚ) / 2 ^ 1074
        else (1 + ((v.extractLsb' 0 52).toNat : ℚ) / 2 ^ 52) * 2 ^ (((v.extractLsb' 52 11).toNat : ℤ) - 1023)) := by
  have hbias : (FloatFormat.dp.scale : ℤ) - FloatFormat.dp.fracBits + 1 = 1023 := by decide
  rw [← hbias, ← FloatFormat.dp_scale]
  exact FloatFormat.dp.toRat_value _ he

theorem rnd64_f64 {v : DWord} (h : f64 v ≠ .nan) : rnd64 (f64 v) = some v := by
  have hround : FloatFormat.dp.round (f64 v) = some (v.msb, (v.extractLsb' 0 63).toNat) := by
    rw [magnitude_dword]
    exact FloatFormat.dp.round_value _ (by decide) (Nat.le_of_lt_succ (BitVec.isLt _)) (BitVec.isLt _) h
  rw [rnd64, hround]
  exact congrArg some (sign_append_magnitude (w := 63) v)

/-! ## The pattern of a rounded number -/

theorem toNat_magnitude {w m bound : Nat} (hm : m ≤ bound) (hbound : bound < 2 ^ w) : (BitVec.ofNat w m).toNat = m :=
  (BitVec.toNat_ofNat ..).trans (Nat.mod_eq_of_lt (hm.trans_lt hbound))

/-- The sign bit and the magnitude bits of a number rounded to single precision. -/
theorem rnd32_finite_bits (s : Bool) (n d : Nat) : ∃ v, rnd32 (.finite s n d) = some v ∧ v.msb = s ∧
    (v.extractLsb' 0 31).toNat = FloatFormat.sp.roundMagnitude n d := by
  refine ⟨_, rnd32_finite s n d, msb_sign_append _ _, ?_⟩
  rw [magnitude_sign_append]
  exact toNat_magnitude (min_le_right ..) (by decide)

/-- The sign bit and the magnitude bits of a number rounded to double precision. -/
theorem rnd64_finite_bits (s : Bool) (n d : Nat) : ∃ v, rnd64 (.finite s n d) = some v ∧ v.msb = s ∧
    (v.extractLsb' 0 63).toNat = FloatFormat.dp.roundMagnitude n d := by
  refine ⟨_, rnd64_finite s n d, msb_sign_append _ _, ?_⟩
  rw [magnitude_sign_append]
  exact toNat_magnitude (min_le_right ..) (by decide)

/-! ## Numbers that double precision holds exactly -/

/-- A number with few enough bits is one that magnitude bits stand for, whatever power of two it is multiplied by. -/
theorem FloatFormat.exists_units (fmt : FloatFormat) (a b : Nat) (ha : a < 2 ^ (fmt.fracBits + 1)) :
    ∃ m, fmt.units m = a * 2 ^ b := by
  induction b generalizing a with
  | zero => exact ⟨_, fmt.units_pattern 0 a (.inl rfl) ha.le⟩
  | succ b ih =>
    by_cases hnormal : 2 ^ fmt.fracBits ≤ a
    · exact ⟨_, fmt.units_pattern (b + 1) a (.inr hnormal) ha.le⟩
    · obtain ⟨m, hm⟩ := ih (2 * a) (by rw [pow_succ]; omega)
      exact ⟨m, by rw [hm, pow_succ]; ring⟩

/-- Magnitude bits that stand for such a number are those of a finite one while the power of two is in range. -/
theorem FloatFormat.lt_infinityBits (fmt : FloatFormat) {a b m : Nat} (ha : a < 2 ^ (fmt.fracBits + 1))
    (hb : b + 1 < fmt.maxExp) (hm : fmt.units m = a * 2 ^ b) : m < fmt.infinityBits := by
  obtain ⟨k, hk⟩ : ∃ k, fmt.maxExp = k + 1 := ⟨fmt.maxExp - 1, by omega⟩
  have hinf : fmt.infinityBits = k * 2 ^ fmt.fracBits + 2 ^ fmt.fracBits := by
    rw [FloatFormat.infinityBits, hk, Nat.add_mul, Nat.one_mul]
  rw [← fmt.units_strictMono.lt_iff_lt, hm, hinf,
    fmt.units_pattern k _ (.inr le_rfl) (Nat.pow_le_pow_right (by decide) (Nat.le_succ _))]
  calc a * 2 ^ b
    _ < 2 ^ (fmt.fracBits + 1) * 2 ^ b := Nat.mul_lt_mul_of_pos_right ha (by positivity)
    _ = 2 ^ fmt.fracBits * 2 ^ (b + 1) := by ring
    _ ≤ 2 ^ fmt.fracBits * 2 ^ k := Nat.mul_le_mul_left _ (Nat.pow_le_pow_right (by decide) (by omega))

/-- A number of at most 53 bits times a power of two in range is rounded to a pattern that denotes it. -/
theorem rnd64_exact {num den a b : Nat} (s : Bool) (hden : 0 < den) (ha : a < 2 ^ 53) (hb : b < 2046)
    (h : num * 2 ^ FloatFormat.dp.scale = a * 2 ^ b * den) :
    ∃ v, rnd64 (.finite s num den) = some v ∧ f64 v = .finite s (a * 2 ^ b) (2 ^ 1074) := by
  obtain ⟨m, hm⟩ := FloatFormat.dp.exists_units a b ha
  have hlt : m < FloatFormat.dp.infinityBits := FloatFormat.dp.lt_infinityBits ha (Nat.succ_lt_succ hb) hm
  obtain ⟨v, hv, hsign, hbits⟩ := rnd64_finite_bits s num den
  rw [← hm] at h
  rw [FloatFormat.dp.roundMagnitude_of_units hden (by decide) hlt.le h] at hbits
  refine ⟨v, hv, ?_⟩
  rw [f64_eq_units (exponent_dword_ne (hbits ▸ hlt)), hsign, hbits, hm]

/-- A finite number of single precision has at most 24 bits, over the fixed denominator. -/
theorem f32_finite {v : Word} {s : Bool} {n d : Nat} (h : f32 v = .finite s n d) :
    ∃ a b, n = a * 2 ^ b ∧ d = 2 ^ FloatFormat.sp.scale ∧ a < 2 ^ 24 ∧ b < 254 := by
  have hf : (v.extractLsb' 0 23).toNat < 2 ^ 23 := BitVec.isLt _
  have he : (v.extractLsb' 23 8).toNat < 256 := BitVec.isLt _
  unfold f32 FloatFormat.value at h
  split at h
  · split at h <;> cases h
  · rename_i hmax
    change _ ≠ 255 at hmax
    split at h
    · cases h
      exact ⟨_, 0, (Nat.mul_one _).symm, rfl, by omega, by decide⟩
    · cases h
      refine ⟨_, _, rfl, rfl, ?_, by omega⟩
      change 2 ^ 23 + _ < _
      omega

theorem mul_pow_add_right_comm (a b c k : Nat) : a * 2 ^ b * 2 ^ (c + k) = a * 2 ^ (b + c) * 2 ^ k := by
  ring

/-- A number of single precision is rounded to double precision with no loss (43_floating_point.md R182). -/
theorem rnd64_f32 {v : Word} {s : Bool} {n d : Nat} (h : f32 v = .finite s n d) :
    ∃ u m e, rnd64 (.finite s n d) = some u ∧ f64 u = .finite s m e ∧ n * e = m * d := by
  obtain ⟨a, b, rfl, rfl, ha, hb⟩ := f32_finite h
  have heq : a * 2 ^ b * 2 ^ FloatFormat.dp.scale = a * 2 ^ (b + 925) * 2 ^ FloatFormat.sp.scale := by
    rw [show FloatFormat.dp.scale = 925 + FloatFormat.sp.scale from rfl]
    exact mul_pow_add_right_comm ..
  obtain ⟨u, hu, hval⟩ := rnd64_exact s (by positivity) (ha.trans (by decide)) (by omega) heq
  exact ⟨u, _, _, hu, hval, FloatFormat.dp_scale ▸ heq⟩

theorem signedNum_natAbs (x : Int) : signedNum (x < 0) x.natAbs = x := by
  unfold signedNum
  split
  · rename_i h
    rw [decide_eq_true_eq] at h
    omega
  · rename_i h
    rw [decide_eq_true_eq] at h
    omega

/-- A signed word is rounded to double precision with no loss (43_floating_point.md R187). -/
theorem rnd64_ofInt (x : Word) : ∃ v m e, rnd64 (.ofInt x.toInt) = some v ∧ f64 v = .finite (x.toInt < 0) m e ∧
    (f64 v).toRat = (x.toInt : ℚ) := by
  have hlow := BitVec.le_toInt x
  have hhigh := BitVec.toInt_lt (x := x)
  have hbits : x.toInt.natAbs < 2 ^ 53 := by omega
  obtain ⟨v, hv, hval⟩ := rnd64_exact (x.toInt < 0) Nat.one_pos hbits (b := FloatFormat.dp.scale) (by decide)
    (Nat.mul_one _).symm
  refine ⟨v, _, _, hv, hval, ?_⟩
  rw [hval, FloatValue.toRat_finite, signedNum_mul_natCast, signedNum_natAbs, FloatFormat.dp_scale, Int.cast_mul,
    Int.cast_natCast]
  exact mul_div_cancel_right₀ _ (by positivity)

end Sys2Proof.Machine

open Sys2Proof Sys2Proof.Machine

/-- Settles O46: the magnitude bits are those of `FloatFormat.roundMagnitude`, the sign bit is kept. -/
theorem roundingIsNearestEven : Obligations.RoundingIsNearestEven := by
  refine fun s => ⟨fun num den hden => ⟨?single, ?double⟩, ?infinities⟩
  case single =>
    obtain ⟨v, hv, hsign, hbits⟩ := rnd32_finite_bits s num den
    exact ⟨v, hv, hsign, hbits ▸ FloatFormat.sp.roundMagnitude_nearestEven num hden (by decide)⟩
  case double =>
    obtain ⟨v, hv, hsign, hbits⟩ := rnd64_finite_bits s num den
    exact ⟨v, hv, hsign, hbits ▸ FloatFormat.dp.roundMagnitude_nearestEven num hden (by decide)⟩
  case infinities => cases s <;> exact ⟨rfl, rfl⟩

/-- Settles O47: the table of R170, read in smallest subnormals, and the rounding of a number that a pattern stands
for. -/
theorem patternsRoundToThemselves : Obligations.PatternsRoundToThemselves :=
  ⟨fun _ => ⟨fun he => if_pos he, fun he => ⟨f32_eq_units he, toRat_f32 he⟩, rnd32_f32⟩,
    fun _ => ⟨fun he => if_pos he, fun he => ⟨f64_eq_units he, toRat_f64 he⟩, rnd64_f64⟩⟩

/-- Settles O48: the number has at most 53 bits, and rounding to double precision loses none of them. -/
theorem convertToDoubleIsExact : Obligations.ConvertToDoubleIsExact := by
  intro rd rs1 s
  have hf2d : exec (.cvtf2d rd rs1) s = s.withPairs (.cvtf2d rd rs1) (s.setDp rd (f32 (s.readF rs1))) := rfl
  have hi2d : exec (.cvti2d rd rs1) s = s.withPairs (.cvti2d rd rs1) (s.setDp rd (.ofInt (s.readF rs1).toInt)) := rfl
  refine ⟨rfl, rfl, fun hodd => ⟨?oddF, ?oddI⟩, fun heven => ?even⟩
  case oddF => exact .of_not_wellFormed hf2d (FReg.isPair_eq_false.mpr hodd)
  case oddI => exact .of_not_wellFormed hi2d (FReg.isPair_eq_false.mpr hodd)
  case even =>
    obtain ⟨hfloat, hnan⟩ := Answers.of_setDp (exec_of_wellFormed hf2d (FReg.isPair_eq_true.mpr heven))
    obtain ⟨hint, -⟩ := Answers.of_setDp (exec_of_wellFormed hi2d (FReg.isPair_eq_true.mpr heven))
    refine ⟨fun u n d hx => ?finite, fun u hx => ?infinity, hnan, ?integer⟩
    case finite =>
      obtain ⟨v, m, e, hv, hval, heq⟩ := rnd64_f32 hx
      exact ⟨v, m, e, hval, heq, hfloat _ (hx ▸ hv)⟩
    case infinity =>
      obtain ⟨v, hv, hval⟩ : ∃ v, rnd64 (.infinity u) = some v ∧ f64 v = .infinity u := by
        cases u <;> exact ⟨_, rfl, rfl⟩
      exact ⟨v, hval, hfloat v (hx ▸ hv)⟩
    case integer =>
      obtain ⟨v, m, e, hv, hval, hrat⟩ := rnd64_ofInt (s.readF rs1)
      exact ⟨v, _, m, e, hval, hrat, rfl, hint v hv⟩
end
